-- ==== Sys2Proof/Word.lean ====
section
/-! DEFINITION. The word types of the block (00_scope.md R9, R11; 30_encoding.md R61). -/

namespace Sys2Proof

/-- A byte: every datum the block stores, moves or exchanges (R9, R48). -/
abbrev Byte := BitVec 8

/-- An operation word `0xPPCCDD` of 24 bits, PORT, CODE and DATA from the top (R61, R79). -/
abbrev OpWord := BitVec 24

end Sys2Proof
end

