-- ==== Sys2Proof/Config.lean ====
section
/-! DEFINITION. The build-time parameters (00_scope.md R8, R10; 10_state.md R26; 30_encoding.md R64), and what
makes a set of them legal. A model takes them as an argument: they are the field `cfg` of State, which no step
writes (log entry 3). DESIGN CHOICE. -/

namespace Sys2Proof

/-- `BUS_CODE_MAP` (R64): the event code of each of the eleven named bus events. -/
structure BusCodes where
  startSent : Byte
  addrAck : Byte
  addrNack : Byte
  dataAck : Byte
  dataNack : Byte
  arbLost : Byte
  slaMatch : Byte
  slaMatchArb : Byte
  slvDataAck : Byte
  slvDataNack : Byte
  stopRx : Byte
deriving DecidableEq, Repr

/-- The eleven codes. -/
def BusCodes.list (m : BusCodes) : List Byte :=
  [m.startSent, m.addrAck, m.addrNack, m.dataAck, m.dataNack, m.arbLost, m.slaMatch, m.slaMatchArb,
   m.slvDataAck, m.slvDataNack, m.stopRx]

/-- The map is injective (R64: "distinct bytes"). -/
abbrev BusCodes.Distinct (m : BusCodes) : Prop := m.list.Nodup

/-- One configuration: the parameters of R8, with `TMR_WIDTH` (R26) and `BUS_CODE_MAP` (R64). -/
structure Config where
  /-- `C_OUT` -/
  cOut : Nat
  /-- `C_IN` -/
  cIn : Nat
  /-- `THRESHOLD` -/
  threshold : Nat
  /-- `OWN_ADDR`, which the bus peripheral matches (R151); no rule of the block reads it -/
  ownAddr : BitVec 7
  /-- `TARGET_ADDR` -/
  targetAddr : BitVec 7
  /-- `T_IDLE`, in ticks -/
  tIdle : Nat
  /-- `T_STOP_POLL`, in ticks -/
  tStopPoll : Nat
  /-- `T_BACKOFF`, in ticks -/
  tBackoff : Nat
  /-- `T_SHORT`, in ticks -/
  tShort : Nat
  /-- `TICK`, the real duration of a tick in a unit the spec leaves open; no rule reads it (R10) -/
  tick : Nat
  /-- `TMR_WIDTH`, the bits of the countdown (R26) -/
  tmrWidth : Nat
  /-- `MAX_STOP_POLLS` -/
  maxStopPolls : Option Nat
  /-- `RX_TIMER_OVERRIDES_STOP_POLL` -/
  rxTimerOverridesStopPoll : Bool
  /-- `BUS_CODE_MAP` -/
  busCodes : BusCodes
deriving DecidableEq, Repr

/-- The capacities R8 allows: powers of two from 1 to 128. -/
def legalCapacities : List Nat := [1, 2, 4, 8, 16, 32, 64, 128]

/-- A tick count a timer of `w` bits can hold (R8: at least 1; R26: the width holds every one). -/
abbrev legalTicks (w n : Nat) : Prop := 1 ≤ n ∧ n < 2 ^ w

/-- The legal values of R8, R26 and R64, together. -/
abbrev Config.Legal (c : Config) : Prop :=
  c.cOut ∈ legalCapacities ∧ c.cIn ∈ legalCapacities ∧
  (1 ≤ c.threshold ∧ c.threshold ≤ 255) ∧
  legalTicks c.tmrWidth c.tIdle ∧ legalTicks c.tmrWidth c.tStopPoll ∧
  legalTicks c.tmrWidth c.tBackoff ∧ legalTicks c.tmrWidth c.tShort ∧
  0 < c.tick ∧ c.maxStopPolls ≠ some 0 ∧ c.busCodes.Distinct

end Sys2Proof
end

