-- ==== Sys2Proof/Syntax.lean ====
section
/-! DEFINITION. The operations of the block, one constructor per row of spec/opcode_table.json, and the
agents that deliver them (00_scope.md R7). -/

namespace Sys2Proof

/-- Who delivers an operation: the five agents of R7 and the reset input (30_encoding.md R62). -/
inductive Agent where
  | bus | srx | stx | tmr | host | reset
deriving DecidableEq, Repr

/-- The execution contexts of 60_exceptions.md R143; reset belongs to neither. -/
inductive Context where
  | interrupt | dispatcher | resetInput
deriving DecidableEq, Repr

/-- The operations. The only operand is the DATA byte where the operation reads it (R61, R63), the busy bit
of TIMER_EXPIRE (R68), and the event code of BUS_DEFAULT (R110, which ignores its value). -/
inductive Instr where
  /-- START_SENT, R93 -/
  | startSent
  /-- ADDR_ACK, R94 -/
  | addrAck
  /-- ADDR_NACK, R96 -/
  | addrNack
  /-- DATA_ACK, R95 -/
  | dataAck
  /-- DATA_NACK, R97 -/
  | dataNack
  /-- ARB_LOST, R98 -/
  | arbLost
  /-- SLA_MATCH, R101 -/
  | slaMatch
  /-- SLA_MATCH_ARB, R102 -/
  | slaMatchArb
  /-- SLV_DATA_ACK, R106: the received byte -/
  | slvDataAck (d : Byte)
  /-- SLV_DATA_NACK, R107: the drained byte -/
  | slvDataNack (d : Byte)
  /-- STOP_RX, R108 -/
  | stopRx
  /-- BUS_DEFAULT, R110: the event code, any but the eleven of R64 -/
  | busDefault (code : Byte)
  /-- SER_RX, R89: the received serial byte -/
  | serRx (b : Byte)
  /-- SER_TX_EMPTY, R91 -/
  | serTxEmpty
  /-- TIMER_TICK, R113 -/
  | timerTick
  /-- TIMER_EXPIRE, R116: the STOP-still-pending sample -/
  | timerExpire (busy : Bool)
  /-- READ_ROLE, R122 -/
  | readRole
  /-- READ_READY, R123 -/
  | readReady
  /-- CLEAR_READY, R124 -/
  | clearReady
  /-- READ_ERR, R127 -/
  | readErr
  /-- READ_CLEAR_ERR, R125 -/
  | readClearErr
  /-- BEGIN_SEND, R126 -/
  | beginSend
  /-- CRIT_ENTER, R129 -/
  | critEnter
  /-- CRIT_EXIT, R130 -/
  | critExit
  /-- RESET, R153 -/
  | reset
deriving DecidableEq, Repr

/-- The twenty-five mnemonics of spec/opcode_table.json, without operands. -/
inductive Mnemonic where
  | startSent | addrAck | addrNack | dataAck | dataNack | arbLost | slaMatch | slaMatchArb
  | slvDataAck | slvDataNack | stopRx | busDefault | serRx | serTxEmpty | timerTick | timerExpire
  | readRole | readReady | clearReady | readErr | readClearErr | beginSend | critEnter | critExit
  | reset
deriving DecidableEq, Repr

end Sys2Proof
end

