-- ==== Sys2Proof/WellFormed.lean ====
section
/-! DEFINITION. Which operations are well formed under a bus code map. -/

namespace Sys2Proof

/-- An operation that some operation word stands for: BUS_DEFAULT's code is not one of the eleven named codes
(30_encoding.md R65; 43_bus_slave.md R110). Every other operation is well formed at every operand. -/
def wellFormed (m : BusCodes) : Instr → Bool
  | .startSent => true
  | .addrAck => true
  | .addrNack => true
  | .dataAck => true
  | .dataNack => true
  | .arbLost => true
  | .slaMatch => true
  | .slaMatchArb => true
  | .slvDataAck _ => true
  | .slvDataNack _ => true
  | .stopRx => true
  | .busDefault code => !m.list.contains code
  | .serRx _ => true
  | .serTxEmpty => true
  | .timerTick => true
  | .timerExpire _ => true
  | .readRole => true
  | .readReady => true
  | .clearReady => true
  | .readErr => true
  | .readClearErr => true
  | .beginSend => true
  | .critEnter => true
  | .critExit => true
  | .reset => true

end Sys2Proof
end

