-- ==== Sys2Proof/Decode.lean ====
section
/-! DEFINITION. The decoder and the encoder of operation words (30_encoding.md R61-R69, R74, R77, R79), the opcode
table, and the default bus event codes. -/

namespace Sys2Proof

/-- `PORT = OW[23:16]` (R61). -/
def OpWord.port (w : OpWord) : Byte := w.extractLsb' 16 8

/-- `CODE = OW[15:8]` (R61); in a BUS word the event code `S` (R63). -/
def OpWord.code (w : OpWord) : Byte := w.extractLsb' 8 8

/-- `DATA = OW[7:0]` (R61). -/
def OpWord.data (w : OpWord) : Byte := w.extractLsb' 0 8

/-- `{PORT, CODE, DATA}` (R61). -/
def opWord (port code data : Byte) : OpWord := port ++ code ++ data

/-- The default of `BUS_CODE_MAP`, the values of R64's table. UNVERIFIED: the spec itself says that it supplies the numbers
from general knowledge (93_implementation_defined.md G1; log entry 9). -/
def defaultBusCodes : BusCodes :=
  { startSent := 0x08, addrAck := 0x18, addrNack := 0x20, dataAck := 0x28, dataNack := 0x30, arbLost := 0x38,
    slaMatch := 0x60, slaMatchArb := 0x68, slvDataAck := 0x80, slvDataNack := 0x88, stopRx := 0xA0 }

/-- Why a word is reserved (R77), by the port whose row it misses. -/
inductive DecodeError where
  /-- ports 0x00 and 0x07-0xFF, R62 -/
  | reservedPort
  /-- an SRX word with CODE other than 0x00, R66 -/
  | reservedSrx
  /-- an STX word other than 0x030000, R67 -/
  | reservedStx
  /-- a TMR word outside R68 -/
  | reservedTmr
  /-- a HOST word outside R69 -/
  | reservedHost
  /-- a RESET word other than 0x060000, R74 -/
  | reservedReset
deriving DecidableEq, Repr

/-- A BUS word: every code selects an operation (R63-R65). -/
def decodeBus (m : BusCodes) (code data : Byte) : Instr :=
  if code = m.startSent then .startSent
  else if code = m.addrAck then .addrAck
  else if code = m.addrNack then .addrNack
  else if code = m.dataAck then .dataAck
  else if code = m.dataNack then .dataNack
  else if code = m.arbLost then .arbLost
  else if code = m.slaMatch then .slaMatch
  else if code = m.slaMatchArb then .slaMatchArb
  else if code = m.slvDataAck then .slvDataAck data
  else if code = m.slvDataNack then .slvDataNack data
  else if code = m.stopRx then .stopRx
  else .busDefault code

/-- An SRX word (R66). -/
def decodeSrx (code data : Byte) : Except DecodeError Instr :=
  if code = 0x00 then .ok (.serRx data) else .error .reservedSrx

/-- An STX word (R67). -/
def decodeStx (code data : Byte) : Except DecodeError Instr :=
  if code = 0x00 ∧ data = 0x00 then .ok .serTxEmpty else .error .reservedStx

/-- A TMR word (R68). -/
def decodeTmr (code data : Byte) : Except DecodeError Instr :=
  if code = 0x00 ∧ data = 0x00 then .ok .timerTick
  else if code = 0x01 ∧ data = 0x00 then .ok (.timerExpire false)
  else if code = 0x01 ∧ data = 0x01 then .ok (.timerExpire true)
  else .error .reservedTmr

/-- A HOST word (R69). -/
def decodeHost (code data : Byte) : Except DecodeError Instr :=
  if data ≠ 0x00 then .error .reservedHost
  else if code = 0x00 then .ok .readRole
  else if code = 0x01 then .ok .readReady
  else if code = 0x02 then .ok .clearReady
  else if code = 0x03 then .ok .readErr
  else if code = 0x04 then .ok .readClearErr
  else if code = 0x05 then .ok .beginSend
  else if code = 0x06 then .ok .critEnter
  else if code = 0x07 then .ok .critExit
  else .error .reservedHost

/-- A RESET word (R74). -/
def decodeReset (code data : Byte) : Except DecodeError Instr :=
  if code = 0x00 ∧ data = 0x00 then .ok .reset else .error .reservedReset

/-- The decoder: PORT, then CODE, then DATA (R62, R79). -/
def decode (m : BusCodes) (w : OpWord) : Except DecodeError Instr :=
  if OpWord.port w = 0x01 then .ok (decodeBus m (OpWord.code w) (OpWord.data w))
  else if OpWord.port w = 0x02 then decodeSrx (OpWord.code w) (OpWord.data w)
  else if OpWord.port w = 0x03 then decodeStx (OpWord.code w) (OpWord.data w)
  else if OpWord.port w = 0x04 then decodeTmr (OpWord.code w) (OpWord.data w)
  else if OpWord.port w = 0x05 then decodeHost (OpWord.code w) (OpWord.data w)
  else if OpWord.port w = 0x06 then decodeReset (OpWord.code w) (OpWord.data w)
  else .error .reservedPort

/-- The busy bit as DATA (R68). -/
def busyData (busy : Bool) : Byte := if busy then 0x01 else 0x00

/-- The encoder, from the tables of R64 and R66-R69, R74; an ignored DATA byte is 0x00 (R61, R76). -/
def encode (m : BusCodes) : Instr → OpWord
  | .startSent => opWord 0x01 m.startSent 0x00
  | .addrAck => opWord 0x01 m.addrAck 0x00
  | .addrNack => opWord 0x01 m.addrNack 0x00
  | .dataAck => opWord 0x01 m.dataAck 0x00
  | .dataNack => opWord 0x01 m.dataNack 0x00
  | .arbLost => opWord 0x01 m.arbLost 0x00
  | .slaMatch => opWord 0x01 m.slaMatch 0x00
  | .slaMatchArb => opWord 0x01 m.slaMatchArb 0x00
  | .slvDataAck d => opWord 0x01 m.slvDataAck d
  | .slvDataNack d => opWord 0x01 m.slvDataNack d
  | .stopRx => opWord 0x01 m.stopRx 0x00
  | .busDefault code => opWord 0x01 code 0x00
  | .serRx b => opWord 0x02 0x00 b
  | .serTxEmpty => opWord 0x03 0x00 0x00
  | .timerTick => opWord 0x04 0x00 0x00
  | .timerExpire busy => opWord 0x04 0x01 (busyData busy)
  | .readRole => opWord 0x05 0x00 0x00
  | .readReady => opWord 0x05 0x01 0x00
  | .clearReady => opWord 0x05 0x02 0x00
  | .readErr => opWord 0x05 0x03 0x00
  | .readClearErr => opWord 0x05 0x04 0x00
  | .beginSend => opWord 0x05 0x05 0x00
  | .critEnter => opWord 0x05 0x06 0x00
  | .critExit => opWord 0x05 0x07 0x00
  | .reset => opWord 0x06 0x00 0x00

/-- The agent that delivers an operation (R62). -/
def Instr.agent : Instr → Agent
  | .startSent | .addrAck | .addrNack | .dataAck | .dataNack | .arbLost | .slaMatch | .slaMatchArb
  | .slvDataAck _ | .slvDataNack _ | .stopRx | .busDefault _ => .bus
  | .serRx _ => .srx
  | .serTxEmpty => .stx
  | .timerTick | .timerExpire _ => .tmr
  | .readRole | .readReady | .clearReady | .readErr | .readClearErr | .beginSend | .critEnter | .critExit => .host
  | .reset => .reset

/-- The PORT code of an agent (R62). -/
def Agent.portCode : Agent → Byte
  | .bus => 0x01
  | .srx => 0x02
  | .stx => 0x03
  | .tmr => 0x04
  | .host => 0x05
  | .reset => 0x06

/-- The context an agent's steps run in (60_exceptions.md R143). -/
def Agent.context : Agent → Context
  | .bus | .srx | .stx | .tmr => .interrupt
  | .host => .dispatcher
  | .reset => .resetInput

/-- The mnemonic of an operation. -/
def Instr.mnemonic : Instr → Mnemonic
  | .startSent => .startSent
  | .addrAck => .addrAck
  | .addrNack => .addrNack
  | .dataAck => .dataAck
  | .dataNack => .dataNack
  | .arbLost => .arbLost
  | .slaMatch => .slaMatch
  | .slaMatchArb => .slaMatchArb
  | .slvDataAck _ => .slvDataAck
  | .slvDataNack _ => .slvDataNack
  | .stopRx => .stopRx
  | .busDefault _ => .busDefault
  | .serRx _ => .serRx
  | .serTxEmpty => .serTxEmpty
  | .timerTick => .timerTick
  | .timerExpire _ => .timerExpire
  | .readRole => .readRole
  | .readReady => .readReady
  | .clearReady => .clearReady
  | .readErr => .readErr
  | .readClearErr => .readClearErr
  | .beginSend => .beginSend
  | .critEnter => .critEnter
  | .critExit => .critExit
  | .reset => .reset

/-- A row of spec/opcode_table.json: a word belongs to it when its bits under `mask` are those of `pattern`. -/
structure OpcodeRow where
  mnemonic : Mnemonic
  pattern : OpWord
  mask : OpWord
deriving DecidableEq, Repr

/-- Does the row match the word? -/
def OpcodeRow.covers (r : OpcodeRow) (w : OpWord) : Bool := w &&& r.mask == r.pattern

/-- spec/opcode_table.json, row by row. BUS_DEFAULT "matches a BUS word only when no other BUS row matches", so the
first matching row is the word's. -/
def opcodeTable : List OpcodeRow :=
  [⟨.startSent, 0x010800, 0xFFFF00⟩, ⟨.addrAck, 0x011800, 0xFFFF00⟩, ⟨.addrNack, 0x012000, 0xFFFF00⟩,
   ⟨.dataAck, 0x012800, 0xFFFF00⟩, ⟨.dataNack, 0x013000, 0xFFFF00⟩, ⟨.arbLost, 0x013800, 0xFFFF00⟩,
   ⟨.slaMatch, 0x016000, 0xFFFF00⟩, ⟨.slaMatchArb, 0x016800, 0xFFFF00⟩, ⟨.slvDataAck, 0x018000, 0xFFFF00⟩,
   ⟨.slvDataNack, 0x018800, 0xFFFF00⟩, ⟨.stopRx, 0x01A000, 0xFFFF00⟩, ⟨.busDefault, 0x010000, 0xFF0000⟩,
   ⟨.serRx, 0x020000, 0xFFFF00⟩, ⟨.serTxEmpty, 0x030000, 0xFFFFFF⟩, ⟨.timerTick, 0x040000, 0xFFFFFF⟩,
   ⟨.timerExpire, 0x040100, 0xFFFFFE⟩, ⟨.readRole, 0x050000, 0xFFFFFF⟩, ⟨.readReady, 0x050100, 0xFFFFFF⟩,
   ⟨.clearReady, 0x050200, 0xFFFFFF⟩, ⟨.readErr, 0x050300, 0xFFFFFF⟩, ⟨.readClearErr, 0x050400, 0xFFFFFF⟩,
   ⟨.beginSend, 0x050500, 0xFFFFFF⟩, ⟨.critEnter, 0x050600, 0xFFFFFF⟩, ⟨.critExit, 0x050700, 0xFFFFFF⟩,
   ⟨.reset, 0x060000, 0xFFFFFF⟩]

/-- The mnemonic the opcode table gives a word, if any. -/
def tableMnemonic (w : OpWord) : Option Mnemonic :=
  (opcodeTable.find? fun r => r.covers w).map OpcodeRow.mnemonic

/-- The operation word of a table row's bits, numbered as the table numbers them; every bit from `nbits` up is 0. -/
def tableWord (nbits w : Nat) : OpWord := BitVec.ofNat 24 (w % 2 ^ nbits)

/-- What the decoder reads from the word whose bits are `w`, under the default code map (R64). An operation word
has exactly 24 bits (R79): a longer one is none. -/
def decodeTableWord (nbits w : Nat) : Option Instr :=
  if nbits ≤ 24 then (decode defaultBusCodes (tableWord nbits w)).toOption else none

end Sys2Proof
end

