-- ==== Sys2Proof/Machine/Params.lean ====
section
/-! DEFINITION. The configuration the state after reset carries (log entry 3). -/

namespace Sys2Proof.Machine

/-- The "Test configuration" of 95_test_vectors.md, the one full set of values the spec writes down, with its
nominal THRESHOLD of 10 and its defaults for MAX_STOP_POLLS, RX_TIMER_OVERRIDES_STOP_POLL and BUS_CODE_MAP.
DESIGN CHOICE: R8 leaves the other parameters open; TICK and TMR_WIDTH, which that table leaves out, are 1 and 8. -/
def nominalConfig : Config :=
  { cOut := 16, cIn := 2, threshold := 10, ownAddr := 0x10, targetAddr := 0x20,
    tIdle := 3, tStopPoll := 1, tBackoff := 5, tShort := 1, tick := 1, tmrWidth := 8,
    maxStopPolls := none, rxTimerOverridesStopPoll := false, busCodes := defaultBusCodes }

end Sys2Proof.Machine
end

