-- ==== Sys2Proof/Machine/State.lean ====
section
/-! DEFINITION. The state of the block (10_state.md), its faults, and the state after reset. -/

namespace Sys2Proof.Machine

/-- `BusRole` (R16). Its 2-bit encoding is `roleCode` in Operands.lean. -/
inductive Role where
  | stopped | sending | receiving | blockedReceiving
deriving DecidableEq, Repr

/-- The bus directives of 30_encoding.md R70: CONTINUE, WITHHOLD_ACK, SEND_START, SEND_STOP. -/
inductive Directive where
  | contAck | withholdAck | sendStart | sendStop
deriving DecidableEq, Repr

/-- What a step drives on an output port (R37): a bus directive with an optional data byte (R70), a byte written to
the serial transmit register (R72), a value returned to the Dispatcher (R73). -/
inductive Output where
  | bus (dir : Directive) (data : Option Byte)
  | ser (b : Byte)
  | ret (v : Byte)
deriving DecidableEq, Repr

/-- The storage of a ring buffer (20_memory.md R45): (index, byte) pairs, indices strictly rising. An index that is
not listed has no value (R47). -/
abbrev Store := List Host.Cell

/-- A ring buffer (R17, R18): storage, next write index, next read index, items held. -/
structure RingBuf where
  data : Store
  head : Nat
  tail : Nat
  count : Nat
deriving DecidableEq, Repr

/-- `FaultKind` (60_exceptions.md R146), and `noSuchSlot`, the model's own. A step that raises one keeps none of its
writes and records the kind in `State.fault` (R12, R142); from then on every step answers `Outcome.fault` with it (R147).
All are safe: the model stops where the spec gives the block no behaviour. -/
inductive Fault where
  /-- BEGIN_SEND outside `role = Stopped` and `ready_to_send = 1` (R126). Safe: "toward unprovable". -/
  | hostContract
  /-- CRIT_ENTER at depth 255 (R129). Safe. -/
  | critOverflow
  /-- CRIT_EXIT at depth 0 (R130). Safe. -/
  | critUnderflow
  /-- TIMER_EXPIRE past MAX_STOP_POLLS (R116, R117). Safe. -/
  | stopPollExhausted
  /-- any word presented while its step is not enabled (R75). Safe: "the hardware never delivers it". -/
  | eventNotEnabled
  /-- a reserved operation word, raised by the decoder's verdict in `step` (R77). Safe. -/
  | refused
  /-- Pop or Peek of a slot with no value (R47); no state that meets the invariant reaches it. Safe. -/
  | unwrittenSlot
  /-- Push, Pop or Peek at an index outside 0..C-1, which R49 says cannot be formed; no state that meets the
  invariant reaches it. The model's own (log entry 6). Safe. -/
  | noSuchSlot
deriving DecidableEq, Repr

/-- The reasons a step can have no meaning. No arm of `exec` raises one. -/
inductive Refusal where
  /-- an instruction of the opcode table without a meaning; raised by no arm. Safe. -/
  | notModelled (mnemonic : String)
deriving DecidableEq, Repr

/-- The block's state (R15), then three fields of the model: the configuration (log entry 3), the operation words still
to be delivered (log entry 1), and the record of what was driven on the ports (log entry 2). -/
structure State where
  /-- `role` (R16) -/
  role : Role
  /-- `OUT` (R17), serial to bus -/
  outBuf : RingBuf
  /-- `IN` (R18), bus to serial -/
  inBuf : RingBuf
  /-- `ready_to_send` (R20) -/
  readyToSend : Bool
  /-- `stop_pending` (R21) -/
  stopPending : Bool
  /-- `err`, ErrorFlags (R22) -/
  err : Byte
  /-- `tx_idle` (R24) -/
  txIdle : Bool
  /-- `txie` (R25), also an output level (R72) -/
  txie : Bool
  /-- `tmr_running` (R26) -/
  tmrRunning : Bool
  /-- `tmr_remaining` (R26), `TMR_WIDTH` bits -/
  tmrRemaining : Nat
  /-- `stop_polls` (R27) -/
  stopPolls : Byte
  /-- `crit_depth` (R28) -/
  critDepth : Byte
  /-- `fault` (R29), model only -/
  fault : Option Fault
  /-- the parameters of R8, fixed for a run (R30): the model's own field -/
  cfg : Config
  /-- the operation words still to come, next first, in the total order of R52: the model's own field -/
  inbox : List OpWord
  /-- everything driven on the output ports, oldest first: the model's own field -/
  outputs : List Output
deriving DecidableEq, Repr

/-- An empty ring buffer whose storage has no value yet (R40). -/
def RingBuf.empty : RingBuf := { data := [], head := 0, tail := 0, count := 0 }

/-- The state every run configured by `c` starts in (70_reset_and_hazards.md R154; values of 10_state.md R40). -/
def State.initial (c : Config) : State :=
  { role := .stopped, outBuf := RingBuf.empty, inBuf := RingBuf.empty,
    readyToSend := false, stopPending := false, err := 0x00, txIdle := true, txie := false,
    tmrRunning := false, tmrRemaining := 0, stopPolls := 0, critDepth := 0, fault := none,
    cfg := c, inbox := [], outputs := [] }

/-- The machine right after reset, under the configuration of Params.lean. -/
def State.reset : State := State.initial nominalConfig

end Sys2Proof.Machine
end

