-- ==== Sys2Proof/Machine/Flags.lean ====
section
/-! DEFINITION. How the flags and the sticky error bits are set and cleared (10_state.md R20-R25, R27). -/

namespace Sys2Proof.Machine

/-- `IN_OVF`, bit 0 of `err` (R22). -/
def inOvfBit : Byte := 0x01

/-- `OUT_OVF`, bit 1 of `err` (R22). -/
def outOvfBit : Byte := 0x02

/-- `err <- err | 0x01` (R23, R106). -/
def setInOvf (s : State) : State := { s with err := s.err ||| inOvfBit }

/-- `err <- err | 0x02` (R23, R89). -/
def setOutOvf (s : State) : State := { s with err := s.err ||| outOvfBit }

/-- `ready_to_send <- 1` (R20). -/
def raiseReady (s : State) : State := { s with readyToSend := true }

/-- `ready_to_send <- 0` (R20). -/
def dropReady (s : State) : State := { s with readyToSend := false }

/-- `min(stop_polls + 1, 255)` (R27, R116). -/
def bumpPolls (n : Byte) : Byte := if n = 0xFF then 0xFF else n + 1

/-- `MAX_STOP_POLLS != none and stop_polls >= MAX_STOP_POLLS` (R116). -/
def pollsExhausted (c : Config) (n : Byte) : Bool :=
  match c.maxStopPolls with
  | none => false
  | some m => decide (m ≤ n.toNat)

/-- The fast-path condition `IN.count = 0` and `tx_idle = 1` (43_bus_slave.md R105). -/
def fastPath (s : State) : Bool := decide (s.inBuf.count = 0) && s.txIdle

/-- `gate` of SER_RX: may serial arrival touch the timer (41_serial_channel.md R89)? -/
def rxGate (s : State) : Bool := !s.stopPending || s.cfg.rxTimerOverridesStopPoll

end Sys2Proof.Machine
end

