-- ==== Sys2Proof/Machine/Operands.lean ====
section
/-! DEFINITION. The values operations compute from operands and registers: the encodings of role and directive
(10_state.md R16; 30_encoding.md R70), the address byte (R71), and the host return values (R73). -/

namespace Sys2Proof.Machine

/-- The 2-bit encoding of `role` (R16). -/
def roleCode : Role → BitVec 2
  | .stopped => 0
  | .sending => 1
  | .receiving => 2
  | .blockedReceiving => 3

/-- The 2-bit code of a directive (R70). -/
def directiveCode : Directive → BitVec 2
  | .contAck => 0
  | .withholdAck => 1
  | .sendStart => 2
  | .sendStop => 3

/-- `SLA_W = {TARGET_ADDR[6:0], 0}` (R71). -/
def slaW (c : Config) : Byte := c.targetAddr ++ 0#1

/-- `zext_8(role)` (R73). -/
def roleByte (r : Role) : Byte := (roleCode r).zeroExtend 8

/-- `zext_8` of a flag (R73). -/
def flagByte (f : Bool) : Byte := if f then 0x01 else 0x00

end Sys2Proof.Machine
end

