-- ==== Sys2Proof/Machine/RingBuffer.lean ====
section
/-! DEFINITION. Buffer storage (20_memory.md R45, R47) and the ring-buffer micro-operations (40_ring_buffer.md). -/

namespace Sys2Proof.Machine

/-- The byte at an index, if that slot has a value. -/
def storeRead : Store → Nat → Option Byte
  | [], _ => none
  | (k, v) :: rest, a => if k = a then some v else storeRead rest a

/-- Write one byte, keeping the indices strictly rising. -/
def storeWrite : Store → Nat → Byte → Store
  | [], a, v => [(a, v)]
  | (k, w) :: rest, a, v =>
    if a < k then (a, v) :: (k, w) :: rest
    else if a = k then (a, v) :: rest
    else (k, w) :: storeWrite rest a v

/-- The canonical form of a store: strictly rising indices. -/
abbrev storeWf (m : Store) : Prop := m.Pairwise fun x y => x.1 < y.1

/-- `MemRead(B, i, 1)` (R45); a slot with no value is UnwrittenSlot (R47). -/
def memRead (c : Nat) (b : RingBuf) (i : Nat) : Except Fault Byte :=
  if i < c then
    match storeRead b.data i with
    | some v => .ok v
    | none => .error .unwrittenSlot
  else .error .noSuchSlot

/-- `MemWrite(B, i, 1, v)` (R45). -/
def memWrite (c : Nat) (b : RingBuf) (i : Nat) (v : Byte) : Except Fault RingBuf :=
  if i < c then .ok { b with data := storeWrite b.data i v } else .error .noSuchSlot

/-- `(i + 1) mod C` (R84). -/
def nextIndex (c i : Nat) : Nat := (i + 1) % c

/-- `Push(B, v)` (R80): `none` is Full, and `B` is then unchanged. -/
def ringPush (c : Nat) (b : RingBuf) (v : Byte) : Except Fault (Option RingBuf) :=
  if b.count = c then .ok none
  else
    match memWrite c b b.head v with
    | .error k => .error k
    | .ok b1 => .ok (some { b1 with head := nextIndex c b.head, count := b.count + 1 })

/-- `Pop(B)` (R81): `none` is an empty buffer, unchanged; a pop that empties the buffer resets its indices. -/
def ringPop (c : Nat) (b : RingBuf) : Except Fault (Option (Byte × RingBuf)) :=
  if b.count = 0 then .ok none
  else
    match memRead c b b.tail with
    | .error k => .error k
    | .ok v =>
      if b.count - 1 = 0 then .ok (some (v, { b with head := 0, tail := 0, count := 0 }))
      else .ok (some (v, { b with tail := nextIndex c b.tail, count := b.count - 1 }))

/-- `Peek(B)` (R82). -/
def ringPeek (c : Nat) (b : RingBuf) : Except Fault (Option Byte) :=
  if b.count = 0 then .ok none
  else
    match memRead c b b.tail with
    | .error k => .error k
    | .ok v => .ok (some v)

end Sys2Proof.Machine
end

