-- ==== Sys2Proof/Machine/Ops.lean ====
section
/-! DEFINITION. The named operations over the state: outputs, timer, the abort and end-of-data micro-operations, when a
step is enabled, how a step runs and records a fault, and how the next operation word is taken. -/

namespace Sys2Proof.Machine

/-- `emit_bus(dir, data?)` (R70). -/
def emitBus (s : State) (dir : Directive) (data : Option Byte) : State :=
  { s with outputs := s.outputs ++ [.bus dir data] }

/-- `emit_ser(b)` (R72). -/
def emitSer (s : State) (b : Byte) : State := { s with outputs := s.outputs ++ [.ser b] }

/-- `host_return(v)` (R73). -/
def hostReturn (s : State) (v : Byte) : State := { s with outputs := s.outputs ++ [.ret v] }

/-- `role <- r` (R16). -/
def setRole (s : State) (r : Role) : State := { s with role := r }

/-- `TimerArm(n)` (44_retry_timer.md R111): no effect while a countdown runs. -/
def timerArm (s : State) (n : Nat) : State :=
  if s.tmrRunning then s else { s with tmrRunning := true, tmrRemaining := n }

/-- `TimerDisarm()` (R112). -/
def timerDisarm (s : State) : State := { s with tmrRunning := false, tmrRemaining := 0 }

/-- `Abort(t)` (42_bus_master.md R99). -/
def abort (s : State) (t : Nat) : State := timerArm (setRole (emitBus s .sendStop none) .stopped) t

/-- `EndOfData()` (R95). -/
def endOfData (s : State) : State :=
  timerArm { emitBus s .sendStop none with stopPending := true, stopPolls := 0 } s.cfg.tStopPoll

/-- Interrupt steps are enabled only outside critical regions (R28, R75). -/
def irqOpen (s : State) : Bool := s.critDepth == 0

/-- SER_TX_EMPTY is enabled (R75). -/
def stxEnabled (s : State) : Bool := irqOpen s && s.txie

/-- TIMER_TICK is enabled (R75). -/
def tickEnabled (s : State) : Bool := irqOpen s && s.tmrRunning && decide (0 < s.tmrRemaining)

/-- TIMER_EXPIRE is enabled (R75). -/
def expireEnabled (s : State) : Bool := irqOpen s && s.tmrRunning && decide (s.tmrRemaining = 0)

/-- `raise Fault(k)`: the record of 10_state.md R29, and nothing else (R12). -/
def recordFault (s : State) (k : Fault) : State := { s with fault := some k }

/-- One atomic step (R12, R75, R142, R147). A faulted state takes no step. A step that is not enabled records
EventNotEnabled. A step whose body raises a fault keeps none of the body's writes. -/
def performStep (s : State) (enabled : Bool) (body : Except Fault State) : Host.Outcome State Fault Refusal :=
  match s.fault with
  | some k => .fault k
  | none =>
    if enabled then
      match body with
      | .ok t => .next t
      | .error k => .next (recordFault s k)
    else .next (recordFault s .eventNotEnabled)

/-- The step of a reserved word: the decoder's verdict, recorded as Refused (R77). -/
def refuseWord (s : State) : Host.Outcome State Fault Refusal := performStep s true (.error .refused)

/-- No event is outstanding: the block waits, its state unchanged (log entry 1); a faulted state stays stopped. -/
def idleStep (s : State) : Host.Outcome State Fault Refusal := performStep s true (.ok s)

/-- The next operation word and the state with it taken from the inbox (log entry 1). -/
def fetch (s : State) : Option (OpWord × State) :=
  match s.inbox with
  | [] => none
  | w :: rest => some (w, { s with inbox := rest })

/-- The state in which `w` is the next word to be delivered. -/
def present (s : State) (w : OpWord) : State := { s with inbox := w :: s.inbox }

end Sys2Proof.Machine
end

