-- ==== Sys2Proof/Machine/BusMaster.lean ====
section
/-! DEFINITION. The bus master-transmit operations (42_bus_master.md). None tests `role` (R100). -/

namespace Sys2Proof.Machine

/-- `START_SENT` (R93): the address byte with the write direction bit. -/
def execStartSent (s : State) : Host.Outcome State Fault Refusal :=
  performStep s (irqOpen s) (.ok (emitBus s .contAck (some (slaW s.cfg))))

/-- Transmit the byte at OUT's tail, or end the transaction when OUT is empty (R94, R95). -/
def transmitTail (s : State) : Except Fault State :=
  match ringPeek s.cfg.cOut s.outBuf with
  | .error k => .error k
  | .ok (some v) => .ok (emitBus s .contAck (some v))
  | .ok none => .ok (endOfData s)

/-- `ADDR_ACK` (R94). -/
def execAddrAck (s : State) : Host.Outcome State Fault Refusal := performStep s (irqOpen s) (transmitTail s)

/-- The body of DATA_ACK: pop the acknowledged byte, then go on with the new tail (R95). -/
def dataAckBody (s : State) : Except Fault State :=
  match ringPop s.cfg.cOut s.outBuf with
  | .error k => .error k
  | .ok none => transmitTail s
  | .ok (some (_, q)) => transmitTail { s with outBuf := q }

/-- `DATA_ACK` (R95). -/
def execDataAck (s : State) : Host.Outcome State Fault Refusal := performStep s (irqOpen s) (dataAckBody s)

/-- `ADDR_NACK` (R96). -/
def execAddrNack (s : State) : Host.Outcome State Fault Refusal :=
  performStep s (irqOpen s) (.ok (abort s s.cfg.tBackoff))

/-- `DATA_NACK` (R97). -/
def execDataNack (s : State) : Host.Outcome State Fault Refusal :=
  performStep s (irqOpen s) (.ok (abort s s.cfg.tBackoff))

/-- `ARB_LOST` (R98; 90_conflicts.md C1: the backoff interval). -/
def execArbLost (s : State) : Host.Outcome State Fault Refusal :=
  performStep s (irqOpen s) (.ok (abort s s.cfg.tBackoff))

end Sys2Proof.Machine
end

