-- ==== Sys2Proof/Machine/BusSlave.lean ====
section
/-! DEFINITION. The bus slave-receive and recovery operations (43_bus_slave.md). -/

namespace Sys2Proof.Machine

/-- The effect of SLA_MATCH (R101). -/
def slaMatchState (s : State) : State :=
  if s.role = .stopped then
    if s.inBuf.count = s.cfg.cIn then emitBus (setRole s .blockedReceiving) .withholdAck none
    else emitBus (setRole s .receiving) .contAck none
  else emitBus s .withholdAck none

/-- `SLA_MATCH` (R101). -/
def execSlaMatch (s : State) : Host.Outcome State Fault Refusal :=
  performStep s (irqOpen s) (.ok (slaMatchState s))

/-- The effect of SLA_MATCH_ARB (R102): the intent is preserved while OUT holds a byte. -/
def slaMatchArbState (s : State) : State :=
  abort (if 0 < s.outBuf.count then raiseReady s else s) s.cfg.tShort

/-- `SLA_MATCH_ARB` (R102). -/
def execSlaMatchArb (s : State) : Host.Outcome State Fault Refusal :=
  performStep s (irqOpen s) (.ok (slaMatchArbState s))

/-- Withhold the next acknowledgment: `role <- BlockedReceiving` and WITHHOLD_ACK (R103, R106). -/
def withhold (s : State) : State := emitBus (setRole s .blockedReceiving) .withholdAck none

/-- The body of SLV_DATA_ACK (R106). -/
def slvDataAckBody (d : Byte) (s : State) : Except Fault State :=
  if fastPath s then .ok (emitBus { emitSer s d with txIdle := false, txie := true } .contAck none)
  else
    match ringPush s.cfg.cIn s.inBuf d with
    | .error k => .error k
    | .ok none => .ok (withhold (setInOvf s))
    | .ok (some q) =>
      if q.count = s.cfg.cIn then .ok (withhold { s with inBuf := q })
      else .ok (emitBus { s with inBuf := q } .contAck none)

/-- `SLV_DATA_ACK D` (R106). -/
def execSlvDataAck (d : Byte) (s : State) : Host.Outcome State Fault Refusal :=
  performStep s (irqOpen s) (slvDataAckBody d s)

/-- The effect of SLV_DATA_NACK (R107): the drained byte is discarded. -/
def slvDataNackState (_d : Byte) (s : State) : State :=
  emitBus (if s.role = .blockedReceiving then setRole s .receiving else s) .contAck none

/-- `SLV_DATA_NACK D` (R107). -/
def execSlvDataNack (d : Byte) (s : State) : Host.Outcome State Fault Refusal :=
  performStep s (irqOpen s) (.ok (slvDataNackState d s))

/-- `STOP_RX` (R108). -/
def execStopRx (s : State) : Host.Outcome State Fault Refusal :=
  performStep s (irqOpen s) (.ok (emitBus (setRole s .stopped) .contAck none))

/-- `BUS_DEFAULT` (R110): the code is ignored. -/
def execBusDefault (_code : Byte) (s : State) : Host.Outcome State Fault Refusal :=
  performStep s (irqOpen s) (.ok (abort s s.cfg.tShort))

end Sys2Proof.Machine
end

