-- ==== Sys2Proof/Machine/Dispatcher.lean ====
section
/-! DEFINITION. The host (Dispatcher) operations (45_host_interface.md). All are enabled at all times (R75, R121). -/

namespace Sys2Proof.Machine

/-- `READ_ROLE` (R122). -/
def execReadRole (s : State) : Host.Outcome State Fault Refusal :=
  performStep s true (.ok (hostReturn s (roleByte s.role)))

/-- `READ_READY` (R123). -/
def execReadReady (s : State) : Host.Outcome State Fault Refusal :=
  performStep s true (.ok (hostReturn s (flagByte s.readyToSend)))

/-- `CLEAR_READY` (R124). -/
def execClearReady (s : State) : Host.Outcome State Fault Refusal := performStep s true (.ok (dropReady s))

/-- `READ_ERR` (R127). -/
def execReadErr (s : State) : Host.Outcome State Fault Refusal :=
  performStep s true (.ok (hostReturn s s.err))

/-- The effect of READ_CLEAR_ERR (R125): one step that returns `err` and clears it if it is non-zero. -/
def readClearErrState (s : State) : State :=
  hostReturn (if s.err ≠ 0x00 then { s with err := 0x00 } else s) s.err

/-- `READ_CLEAR_ERR` (R125). -/
def execReadClearErr (s : State) : Host.Outcome State Fault Refusal := performStep s true (.ok (readClearErrState s))

/-- The body of BEGIN_SEND (R126; 90_conflicts.md C4). -/
def beginSendBody (s : State) : Except Fault State :=
  if s.role = .stopped ∧ s.readyToSend = true then
    if 0 < s.outBuf.count then .ok (emitBus (setRole (dropReady s) .sending) .sendStart none)
    else .ok (dropReady s)
  else .error .hostContract

/-- `BEGIN_SEND` (R126). -/
def execBeginSend (s : State) : Host.Outcome State Fault Refusal := performStep s true (beginSendBody s)

/-- `CRIT_ENTER` (R129). -/
def execCritEnter (s : State) : Host.Outcome State Fault Refusal :=
  performStep s true
    (if s.critDepth = 0xFF then .error .critOverflow else .ok { s with critDepth := s.critDepth + 1 })

/-- `CRIT_EXIT` (R130). -/
def execCritExit (s : State) : Host.Outcome State Fault Refusal :=
  performStep s true
    (if s.critDepth = 0x00 then .error .critUnderflow else .ok { s with critDepth := s.critDepth - 1 })

end Sys2Proof.Machine
end

