-- ==== Sys2Proof/Machine/ResetInput.lean ====
section
/-! DEFINITION. The reset input (70_reset_and_hazards.md R153). -/

namespace Sys2Proof.Machine

/-- A buffer after RESET: empty, its storage unspecified, so no slot has a value (R40, R153, R156; log entry 4). -/
def resetRing : RingBuf := { data := [], head := 0, tail := 0, count := 0 }

/-- Every element at its reset value; `fault` is not changed and nothing is emitted (R153). -/
def resetState (s : State) : State :=
  { s with
    role := .stopped, outBuf := resetRing, inBuf := resetRing,
    readyToSend := false, stopPending := false, err := 0x00, txIdle := true, txie := false,
    tmrRunning := false, tmrRemaining := 0, stopPolls := 0, critDepth := 0 }

/-- `RESET` (R153). -/
def execReset (s : State) : Host.Outcome State Fault Refusal := performStep s true (.ok (resetState s))

end Sys2Proof.Machine
end

