-- ==== Sys2Proof/Machine/RetryTimer.lean ====
section
/-! DEFINITION. The retry-timer operations (44_retry_timer.md). -/

namespace Sys2Proof.Machine

/-- `TIMER_TICK` (R113). -/
def execTimerTick (s : State) : Host.Outcome State Fault Refusal :=
  performStep s (tickEnabled s) (.ok { s with tmrRemaining := s.tmrRemaining - 1 })

/-- The body of TIMER_EXPIRE (R116): the countdown is consumed, then the pending intent is resolved. -/
def timerExpireBody (busy : Bool) (s : State) : Except Fault State :=
  let s1 := { s with tmrRunning := false }
  if s1.stopPending then
    if busy then
      if pollsExhausted s1.cfg s1.stopPolls then .error .stopPollExhausted
      else .ok (timerArm { s1 with stopPolls := bumpPolls s1.stopPolls } s1.cfg.tStopPoll)
    else .ok { s1 with stopPending := false, stopPolls := 0, role := .stopped }
  else .ok (raiseReady s1)

/-- `TIMER_EXPIRE busy` (R116). -/
def execTimerExpire (busy : Bool) (s : State) : Host.Outcome State Fault Refusal :=
  performStep s (expireEnabled s) (timerExpireBody busy s)

end Sys2Proof.Machine
end

