-- ==== Sys2Proof/Machine/SerialChannel.lean ====
section
/-! DEFINITION. The serial channel operations (41_serial_channel.md). -/

namespace Sys2Proof.Machine

/-- The end of SER_RX: the threshold test, made whatever the push returned (R89). -/
def serRxThreshold (s : State) : State :=
  if s.cfg.threshold ≤ s.outBuf.count then
    if rxGate s then timerDisarm (raiseReady s) else raiseReady s
  else if rxGate s then timerArm s s.cfg.tIdle else s

/-- The body of SER_RX: disarm, push, flag an overflow, test the threshold (R89). -/
def serRxBody (b : Byte) (s : State) : Except Fault State :=
  let s1 := if rxGate s then timerDisarm s else s
  match ringPush s1.cfg.cOut s1.outBuf b with
  | .error k => .error k
  | .ok none => .ok (serRxThreshold (setOutOvf s1))
  | .ok (some q) => .ok (serRxThreshold { s1 with outBuf := q })

/-- `SER_RX b` (R89). -/
def execSerRx (b : Byte) (s : State) : Host.Outcome State Fault Refusal := performStep s (irqOpen s) (serRxBody b s)

/-- The body of SER_TX_EMPTY (R91). -/
def serTxEmptyBody (s : State) : Except Fault State :=
  match ringPop s.cfg.cIn s.inBuf with
  | .error k => .error k
  | .ok (some (v, q)) => .ok (emitSer { s with inBuf := q } v)
  | .ok none => .ok { s with txie := false, txIdle := true }

/-- `SER_TX_EMPTY` (R91). -/
def execSerTxEmpty (s : State) : Host.Outcome State Fault Refusal := performStep s (stxEnabled s) (serTxEmptyBody s)

end Sys2Proof.Machine
end

