-- ==== Sys2Proof/Machine/Dispatch.lean ====
section
/-! DEFINITION. One arm per operation, each a direct call of its meaning. -/

namespace Sys2Proof.Machine

/-- The meaning of an operation. -/
def exec (i : Instr) (s : State) : Host.Outcome State Fault Refusal :=
  match i with
  | .startSent => Sys2Proof.Machine.execStartSent s
  | .addrAck => Sys2Proof.Machine.execAddrAck s
  | .addrNack => Sys2Proof.Machine.execAddrNack s
  | .dataAck => Sys2Proof.Machine.execDataAck s
  | .dataNack => Sys2Proof.Machine.execDataNack s
  | .arbLost => Sys2Proof.Machine.execArbLost s
  | .slaMatch => Sys2Proof.Machine.execSlaMatch s
  | .slaMatchArb => Sys2Proof.Machine.execSlaMatchArb s
  | .slvDataAck d => Sys2Proof.Machine.execSlvDataAck d s
  | .slvDataNack d => Sys2Proof.Machine.execSlvDataNack d s
  | .stopRx => Sys2Proof.Machine.execStopRx s
  | .busDefault code => Sys2Proof.Machine.execBusDefault code s
  | .serRx b => Sys2Proof.Machine.execSerRx b s
  | .serTxEmpty => Sys2Proof.Machine.execSerTxEmpty s
  | .timerTick => Sys2Proof.Machine.execTimerTick s
  | .timerExpire busy => Sys2Proof.Machine.execTimerExpire busy s
  | .readRole => Sys2Proof.Machine.execReadRole s
  | .readReady => Sys2Proof.Machine.execReadReady s
  | .clearReady => Sys2Proof.Machine.execClearReady s
  | .readErr => Sys2Proof.Machine.execReadErr s
  | .readClearErr => Sys2Proof.Machine.execReadClearErr s
  | .beginSend => Sys2Proof.Machine.execBeginSend s
  | .critEnter => Sys2Proof.Machine.execCritEnter s
  | .critExit => Sys2Proof.Machine.execCritExit s
  | .reset => Sys2Proof.Machine.execReset s

end Sys2Proof.Machine
end

