-- ==== Sys2Proof/Machine/Step.lean ====
section
/-! DEFINITION. One step of the block: the next operation word is taken, decoded and run (30_encoding.md R61, R77). -/

namespace Sys2Proof.Machine

/-- The step of a decoder's verdict. -/
def runDecoded (r : Except DecodeError Instr) (s : State) : Host.Outcome State Fault Refusal :=
  match r with
  | .ok i => exec i s
  | .error _ => refuseWord s

/-- One step: the next word of the inbox, decoded under the configured code map; idle when there is none. -/
def step (s : State) : Host.Outcome State Fault Refusal :=
  match fetch s with
  | none => idleStep s
  | some (w, t) => runDecoded (decode t.cfg.busCodes w) t

/-- `s` with the table word `w` as the next operation word to be delivered. -/
def State.withFetchWord (s : State) (nbits w : Nat) : State := present s (tableWord nbits w)

end Sys2Proof.Machine
end

