-- ==== Sys2Proof/Machine/Assembler.lean ====
section
/-! DEFINITION. Operation traces: the assembler lines of 30_encoding.md R76 and the pseudo-instructions of R78. -/

namespace Sys2Proof.Machine

/-- Why a line of a trace is not one of R76. -/
inductive AsmError where
  | unknownOperation | badOperand
deriving DecidableEq, Repr

/-- Close the token being read (kept reversed), if it has a character. -/
def asmFlush (acc : List Char) (rest : List (List Char)) : List (List Char) :=
  if acc = [] then rest else acc.reverse :: rest

/-- The tokens of a line: words and commas, up to a comment `;` or an output annotation `=>` (R76). -/
def asmTokens : List Char → List Char → List (List Char)
  | [], acc => asmFlush acc []
  | '=' :: '>' :: _, acc => asmFlush acc []
  | c :: cs, acc =>
    if c = ';' then asmFlush acc []
    else if c = ' ' ∨ c = '\t' then asmFlush acc (asmTokens cs [])
    else if c = ',' then asmFlush acc ([','] :: asmTokens cs [])
    else asmTokens cs (c :: acc)

/-- The value of a digit, hexadecimal letters included. -/
def asmDigit (c : Char) : Option Nat :=
  if '0' ≤ c ∧ c ≤ '9' then some (c.toNat - '0'.toNat)
  else if 'a' ≤ c ∧ c ≤ 'f' then some (c.toNat - 'a'.toNat + 10)
  else if 'A' ≤ c ∧ c ≤ 'F' then some (c.toNat - 'A'.toNat + 10)
  else none

/-- Digits in a base, after a value already read. -/
def asmDigits (base : Nat) : List Char → Nat → Option Nat
  | [], n => some n
  | c :: cs, n =>
    match asmDigit c with
    | none => none
    | some d => if d < base then asmDigits base cs (base * n + d) else none

/-- A number: hexadecimal with `0x`, or decimal (R76). -/
def asmNumber : List Char → Option Nat
  | [] => none
  | '0' :: 'x' :: [] => none
  | '0' :: 'x' :: cs => asmDigits 16 cs 0
  | cs => asmDigits 10 cs 0

/-- A number that fits a byte. -/
def asmByte (t : List Char) : Except AsmError Byte :=
  match asmNumber t with
  | some n => if n < 256 then .ok (BitVec.ofNat 8 n) else .error .badOperand
  | none => .error .badOperand

/-- The event code a named bus event stands for (R64, R76). -/
def asmBusName (m : BusCodes) (t : List Char) : Option Byte :=
  if t = "START_SENT".toList then some m.startSent
  else if t = "ADDR_ACK".toList then some m.addrAck
  else if t = "ADDR_NACK".toList then some m.addrNack
  else if t = "DATA_ACK".toList then some m.dataAck
  else if t = "DATA_NACK".toList then some m.dataNack
  else if t = "ARB_LOST".toList then some m.arbLost
  else if t = "SLA_MATCH".toList then some m.slaMatch
  else if t = "SLA_MATCH_ARB".toList then some m.slaMatchArb
  else if t = "SLV_DATA_ACK".toList then some m.slvDataAck
  else if t = "SLV_DATA_NACK".toList then some m.slvDataNack
  else if t = "STOP_RX".toList then some m.stopRx
  else none

/-- The event code of a `bus` line: a mnemonic or a number (R76). -/
def asmBusCode (m : BusCodes) (t : List Char) : Except AsmError Byte :=
  match asmBusName m t with
  | some c => .ok c
  | none => asmByte t

/-- The CODE of a `host` operation (R69, R76). -/
def asmHostCode (t : List Char) : Except AsmError Byte :=
  if t = "read_role".toList then .ok 0x00
  else if t = "read_ready".toList then .ok 0x01
  else if t = "clear_ready".toList then .ok 0x02
  else if t = "read_err".toList then .ok 0x03
  else if t = "read_clear_err".toList then .ok 0x04
  else if t = "begin_send".toList then .ok 0x05
  else if t = "crit_enter".toList then .ok 0x06
  else if t = "crit_exit".toList then .ok 0x07
  else .error .unknownOperation

/-- `bus <S>[, <D>]` after the word `bus`; D defaults to 0x00 (R76). -/
def asmBus (m : BusCodes) : List (List Char) → Except AsmError OpWord
  | [s] => (asmBusCode m s).map fun c => opWord 0x01 c 0x00
  | [s, comma, d] =>
    if comma = [','] then
      match asmBusCode m s, asmByte d with
      | .ok c, .ok b => .ok (opWord 0x01 c b)
      | .error e, _ => .error e
      | _, .error e => .error e
    else .error .badOperand
  | _ => .error .badOperand

/-- The word of a line's tokens (R76). -/
def asmWord (m : BusCodes) (op : List Char) (args : List (List Char)) : Except AsmError OpWord :=
  if op = "bus".toList then asmBus m args
  else if op = "rx".toList then
    match args with
    | [t] => (asmByte t).map fun b => opWord 0x02 0x00 b
    | _ => .error .badOperand
  else if op = "txe".toList then if args = [] then .ok (opWord 0x03 0x00 0x00) else .error .badOperand
  else if op = "tick".toList then if args = [] then .ok (opWord 0x04 0x00 0x00) else .error .badOperand
  else if op = "expire".toList then
    match args with
    | [t] =>
      match asmByte t with
      | .ok k => if k.toNat ≤ 1 then .ok (opWord 0x04 0x01 k) else .error .badOperand
      | .error e => .error e
    | _ => .error .badOperand
  else if op = "host".toList then
    match args with
    | [t] => (asmHostCode t).map fun c => opWord 0x05 c 0x00
    | _ => .error .badOperand
  else if op = "reset".toList then if args = [] then .ok (opWord 0x06 0x00 0x00) else .error .badOperand
  else .error .unknownOperation

/-- One line of a trace: no word for a blank or comment line (R76). -/
def asmLine (m : BusCodes) (line : List Char) : Except AsmError (Option OpWord) :=
  match asmTokens line [] with
  | [] => .ok none
  | op :: args => (asmWord m op args).map some

/-- `ticks <n>` (R78). -/
def pseudoTicks (n : Nat) : List Instr := List.replicate n .timerTick

/-- `crit` around a sequence of operations (R78). -/
def pseudoCrit (ops : List Instr) : List Instr := .critEnter :: (ops ++ [.critExit])

/-- `try_send` (R78, R128), expanded against the state. -/
def pseudoTrySend (s : State) : List Instr :=
  pseudoCrit (.readRole :: .readReady :: (if s.role = .stopped ∧ s.readyToSend = true then [.beginSend] else []))

/-- `flush`: the remaining ticks, then the expiry with `busy = 0` (R78). -/
def pseudoFlush (s : State) : List Instr := pseudoTicks s.tmrRemaining ++ [.timerExpire false]

end Sys2Proof.Machine
end

