-- ==== Sys2Proof/Safety.lean ====
section
/-! DEFINITION. What counts as a good state and a good run, in the terms the statements use. -/

namespace Sys2Proof.Safety

open Sys2Proof.Machine

/-! ## Buffers -/

/-- The buffered bytes, oldest first (10_state.md R19). -/
def contents (c : Nat) (b : RingBuf) : List Byte :=
  (List.range b.count).filterMap fun k => storeRead b.data ((b.tail + k) % c)

/-- The ring-buffer invariant (R19), with the canonical form of the storage. -/
structure RingWf (c : Nat) (b : RingBuf) : Prop where
  countLe : b.count ≤ c
  tailLt : b.tail < c
  /-- "`B.head = (B.tail + B.count) mod C`" -/
  headEq : b.head = (b.tail + b.count) % c
  /-- the storage lists its slots in rising order, once each -/
  canonical : storeWf b.data
  /-- and none outside 0..C-1 -/
  bounded : ∀ x ∈ b.data, x.1 < c
  /-- every buffered slot has been written (R47) -/
  written : ∀ k < b.count, (storeRead b.data ((b.tail + k) % c)).isSome = true

/-- Push a sequence of bytes; `none` as soon as one push does not answer Ok. -/
def pushAll (c : Nat) : List Byte → RingBuf → Option RingBuf
  | [], b => some b
  | v :: vs, b =>
    match ringPush c b v with
    | .ok (some q) => pushAll c vs q
    | .ok none => none
    | .error _ => none

/-- Pop `n` times, with the bytes in the order they came; `none` as soon as one pop yields no byte. -/
def popMany (c : Nat) : Nat → RingBuf → Option (List Byte × RingBuf)
  | 0, b => some ([], b)
  | n + 1, b =>
    match ringPop c b with
    | .ok (some (v, q)) => (popMany c n q).map fun r => (v :: r.1, r.2)
    | .ok none => none
    | .error _ => none

/-! ## States -/

/-- The derived invariants of 10_state.md sections 3 and 10, for a legal configuration. -/
structure Inv (s : State) : Prop where
  /-- the parameters are legal (00_scope.md R8) -/
  legal : s.cfg.Legal
  /-- R19 for OUT -/
  outWf : RingWf s.cfg.cOut s.outBuf
  /-- R19 for IN -/
  inWf : RingWf s.cfg.cIn s.inBuf
  /-- R35: err[7:2] = 0 -/
  errHigh : s.err &&& 0xFC = 0
  /-- R32: txie = 1 - tx_idle -/
  txieNot : s.txie = !s.txIdle
  /-- R32: an idle transmitter has nothing waiting -/
  idleEmpty : s.txIdle = true → s.inBuf.count = 0
  /-- R33: a live send has a byte to send -/
  sendingHasByte : s.role = .sending → s.stopPending = false → 0 < s.outBuf.count
  /-- R34: the stop poll is running -/
  stopPolled : s.cfg.rxTimerOverridesStopPoll = false → s.stopPending = true → s.tmrRunning = true
  /-- R26: the countdown fits its register -/
  timerFits : s.tmrRemaining < 2 ^ s.cfg.tmrWidth

/-- The enabling table of 30_encoding.md R75, in a state with no fault recorded. -/
def Enabled (i : Instr) (s : State) : Prop :=
  match i.agent with
  | .bus => s.critDepth = 0
  | .srx => s.critDepth = 0
  | .stx => s.critDepth = 0 ∧ s.txie = true
  | .tmr =>
    s.critDepth = 0 ∧ s.tmrRunning = true ∧
      (if i = .timerTick then 0 < s.tmrRemaining else s.tmrRemaining = 0)
  | .host => True
  | .reset => True

/-- The elements of the state, for statements about what an operation leaves unchanged. -/
inductive Element where
  | role | outData | outIndex | inData | inIndex | readyToSend | stopPending | err | txIdle | txie
  | tmrRunning | tmrRemaining | stopPolls | critDepth | fault | cfg | inbox | outputs
deriving DecidableEq, Repr

/-- The two states agree on an element. -/
def Same (e : Element) (s t : State) : Prop :=
  match e with
  | .role => t.role = s.role
  | .outData => t.outBuf.data = s.outBuf.data
  | .outIndex => t.outBuf.head = s.outBuf.head ∧ t.outBuf.tail = s.outBuf.tail ∧ t.outBuf.count = s.outBuf.count
  | .inData => t.inBuf.data = s.inBuf.data
  | .inIndex => t.inBuf.head = s.inBuf.head ∧ t.inBuf.tail = s.inBuf.tail ∧ t.inBuf.count = s.inBuf.count
  | .readyToSend => t.readyToSend = s.readyToSend
  | .stopPending => t.stopPending = s.stopPending
  | .err => t.err = s.err
  | .txIdle => t.txIdle = s.txIdle
  | .txie => t.txie = s.txie
  | .tmrRunning => t.tmrRunning = s.tmrRunning
  | .tmrRemaining => t.tmrRemaining = s.tmrRemaining
  | .stopPolls => t.stopPolls = s.stopPolls
  | .critDepth => t.critDepth = s.critDepth
  | .fault => t.fault = s.fault
  | .cfg => t.cfg = s.cfg
  | .inbox => t.inbox = s.inbox
  | .outputs => t.outputs = s.outputs

/-- What the rule of each operation writes ("State written" and "Outputs" of files 41-45 and R153); `fault` is the
record of R146, which any step may write. -/
def mayWrite : Instr → List Element
  | .startSent => [.outputs, .fault]
  | .addrAck => [.stopPending, .stopPolls, .tmrRunning, .tmrRemaining, .outputs, .fault]
  | .addrNack => [.role, .tmrRunning, .tmrRemaining, .outputs, .fault]
  | .dataAck => [.outIndex, .stopPending, .stopPolls, .tmrRunning, .tmrRemaining, .outputs, .fault]
  | .dataNack => [.role, .tmrRunning, .tmrRemaining, .outputs, .fault]
  | .arbLost => [.role, .tmrRunning, .tmrRemaining, .outputs, .fault]
  | .slaMatch => [.role, .outputs, .fault]
  | .slaMatchArb => [.role, .readyToSend, .tmrRunning, .tmrRemaining, .outputs, .fault]
  | .slvDataAck _ => [.role, .inData, .inIndex, .err, .txIdle, .txie, .outputs, .fault]
  | .slvDataNack _ => [.role, .outputs, .fault]
  | .stopRx => [.role, .outputs, .fault]
  | .busDefault _ => [.role, .tmrRunning, .tmrRemaining, .outputs, .fault]
  | .serRx _ => [.outData, .outIndex, .err, .readyToSend, .tmrRunning, .tmrRemaining, .fault]
  | .serTxEmpty => [.inIndex, .txIdle, .txie, .outputs, .fault]
  | .timerTick => [.tmrRemaining, .fault]
  | .timerExpire _ => [.role, .readyToSend, .stopPending, .stopPolls, .tmrRunning, .tmrRemaining, .fault]
  | .readRole => [.outputs, .fault]
  | .readReady => [.outputs, .fault]
  | .clearReady => [.readyToSend, .fault]
  | .readErr => [.outputs, .fault]
  | .readClearErr => [.err, .outputs, .fault]
  | .beginSend => [.role, .readyToSend, .outputs, .fault]
  | .critEnter => [.critDepth, .fault]
  | .critExit => [.critDepth, .fault]
  | .reset =>
    [.role, .outData, .outIndex, .inData, .inIndex, .readyToSend, .stopPending, .err, .txIdle, .txie,
     .tmrRunning, .tmrRemaining, .stopPolls, .critDepth]

/-! ## The effects the rules spell out -/

/-- A countdown of `n` ticks armed under the running guard (44_retry_timer.md R111), field by field. -/
def withArm (s : State) (n : Nat) : State :=
  { s with tmrRunning := true, tmrRemaining := if s.tmrRunning then s.tmrRemaining else n }

/-- What `Abort(t)` leaves (42_bus_master.md R99). -/
def afterAbort (s : State) (t : Nat) : State :=
  withArm { s with role := .stopped, outputs := s.outputs ++ [.bus .sendStop none] } t

/-- What `EndOfData` leaves (R95). -/
def afterEndOfData (s : State) : State :=
  withArm { s with stopPending := true, stopPolls := 0, outputs := s.outputs ++ [.bus .sendStop none] } s.cfg.tStopPoll

/-- A buffer after a byte was popped from it, by the index rule of 40_ring_buffer.md R81. -/
def afterPop (c : Nat) (b : RingBuf) : RingBuf :=
  if b.count = 1 then { b with head := 0, tail := 0, count := 0 }
  else { b with tail := (b.tail + 1) % c, count := b.count - 1 }

/-- The outputs of a list that are bus directives. -/
def busOutputs (os : List Output) : List Output :=
  os.filter fun o => match o with | .bus _ _ => true | .ser _ => false | .ret _ => false

/-- The bytes written to the serial transmit register, in order. -/
def serBytes (os : List Output) : List Byte :=
  os.filterMap fun o => match o with | .ser b => some b | .bus _ _ => none | .ret _ => none

/-! ## Runs -/

/-- Run operations one after another; `none` as soon as one does not answer a next state with no fault recorded. -/
def runAll : List Instr → State → Option State
  | [], s => some s
  | i :: is, s =>
    match exec i s with
    | .next t => if t.fault = none then runAll is t else none
    | .fault _ => none
    | .refused _ => none

/-- The bus bytes an operation accepts for the serial side (20_memory.md R59, R60): those SLV_DATA_ACK does not drop. -/
def acceptedIn (i : Instr) (s : State) : List Byte :=
  match i with
  | .slvDataAck d => if s.inBuf.count = s.cfg.cIn then [] else [d]
  | _ => []

/-- The serial bytes an operation accepts for the bus side (R60): those SER_RX does not drop. -/
def acceptedOut (i : Instr) (s : State) : List Byte :=
  match i with
  | .serRx b => if s.outBuf.count = s.cfg.cOut then [] else [b]
  | _ => []

/-- The bytes an operation takes from OUT: only DATA_ACK takes one, the oldest (R95). -/
def takenOut (i : Instr) (s : State) : List Byte :=
  match i with
  | .dataAck => (contents s.cfg.cOut s.outBuf).take 1
  | _ => []

/-- What a per-operation list collects along a run of operations. -/
def collect (f : Instr → State → List Byte) : List Instr → State → List Byte
  | [], _ => []
  | i :: is, s =>
    f i s ++
      (match exec i s with
       | .next t => collect f is t
       | .fault _ => []
       | .refused _ => [])

/-- `n` busy stop polls: each expiry with `busy = 1`, then the ticks of one poll interval (44_retry_timer.md R117). -/
def busyPolls (ticks : Nat) : Nat → List Instr
  | 0 => []
  | n + 1 => .timerExpire true :: (pseudoTicks ticks ++ busyPolls ticks n)

/-- An endless run: operation `σ n` takes state `st n` to `st (n + 1)`, and no fault is ever recorded. -/
structure EndlessRun (σ : Nat → Instr) (st : Nat → State) : Prop where
  steps : ∀ n, exec (σ n) (st n) = .next (st (n + 1))
  faultFree : ∀ n, (st n).fault = none

/-- The sources whose pending event lies in a peripheral, outside the state (60_exceptions.md R137, R138). -/
def IsPeripheral (a : Agent) : Prop := a = .bus ∨ a = .srx ∨ a = .stx

/-- The "enabled by" column of R137; HOST and RESET are no interrupt sources. -/
def SourceEnabled (a : Agent) (s : State) : Prop :=
  match a with
  | .bus => True
  | .srx => True
  | .stx => s.txie = true
  | .tmr => s.tmrRunning = true
  | .host => True
  | .reset => True

/-- A source is enabled and not masked (R137). -/
abbrev SourceOpen (a : Agent) (s : State) : Prop := s.critDepth = 0 ∧ SourceEnabled a s

/-- The "pending when" column of R137 along a run: `pend n a` says that before step `n` the bus peripheral has an event
code to report (BUS), the serial receiver holds a byte (SRX), or the transmit register can take a byte (STX). -/
structure PendingTrace (σ : Nat → Instr) (st : Nat → State) (pend : Nat → Agent → Prop) : Prop where
  /-- an interrupt step is the handler of a pending source (R143) -/
  taken : ∀ n, IsPeripheral (σ n).agent → pend n (σ n).agent
  /-- a pending event is kept, masked or not, until its source's step clears it (R137, R138). What a reset does to it is
  outside the block (R155); the transmit register is also filled by the fast path, which runs only with `txie` = 0. -/
  kept : ∀ n a, IsPeripheral a → pend n a → SourceEnabled a (st n) → (σ n).agent ≠ a → σ n ≠ .reset → pend (n + 1) a

/-- F1 (R141): where the timer's source is open again and again from some point on, a TMR step runs after it. An enabled
timer always has a tick or an expiry pending (R137). -/
def FairTimer (σ : Nat → Instr) (st : Nat → State) : Prop :=
  ∀ n, (∀ k, n ≤ k → ∃ m, k ≤ m ∧ SourceOpen .tmr (st m)) → ∃ m, n ≤ m ∧ (σ m).agent = .tmr

/-- F2 (R141), for SRX, STX and BUS: where the source has an event pending and is open, again and again from some point
on, its step runs after it. -/
def FairEvents (σ : Nat → Instr) (st : Nat → State) (pend : Nat → Agent → Prop) : Prop :=
  ∀ a n, IsPeripheral a → (∀ k, n ≤ k → ∃ m, k ≤ m ∧ pend m a ∧ SourceOpen a (st m)) →
    ∃ m, n ≤ m ∧ (σ m).agent = a

/-- F3 (R141): if stop-confirmation expiries never end, one of them eventually reports `busy = 0`. -/
def BusyEnds (σ : Nat → Instr) (st : Nat → State) : Prop :=
  ∀ n, (∀ k, n ≤ k → ∃ m b, k ≤ m ∧ σ m = .timerExpire b ∧ (st m).stopPending = true) →
    ∃ m, n ≤ m ∧ σ m = .timerExpire false ∧ (st m).stopPending = true

/-- F4 (R141): the Dispatcher eventually leaves every critical region. -/
def RegionsEnd (st : Nat → State) : Prop := ∀ n, ∃ m, n ≤ m ∧ (st m).critDepth = 0

/-- The elements the Dispatcher contract neither reads nor writes (45_host_interface.md R131), taken from `u`. -/
def withHidden (s u : State) : State :=
  { s with
    stopPending := u.stopPending, tmrRunning := u.tmrRunning, tmrRemaining := u.tmrRemaining,
    txIdle := u.txIdle, txie := u.txie, inBuf := u.inBuf,
    outBuf := { u.outBuf with count := s.outBuf.count } }

/-- The two parameters no rule of the block reads: TICK (00_scope.md R10) and OWN_ADDR (60_exceptions.md R151). -/
def withUnread (s : State) (tick : Nat) (own : BitVec 7) : State :=
  { s with cfg := { s.cfg with tick := tick, ownAddr := own } }

/-- Apply a function to the next state of an outcome. -/
def mapNext (f : State → State) : Host.Outcome State Fault Refusal → Host.Outcome State Fault Refusal
  | .next t => .next (f t)
  | .fault k => .fault k
  | .refused r => .refused r

end Sys2Proof.Safety
end

