-- ==== Sys2Proof/Certificates/Slice0/Obligations.lean ====
section
/-! DEFINITION. The statements for the provers. In every one, a directive, serial write or return value of the spec is
an entry appended to `outputs` (log entry 2), a fault is the record in `fault` (log entry 5), and the parameters are
those of the state's own `cfg` (log entry 3). -/

open Sys2Proof Sys2Proof.Machine Sys2Proof.Safety

/-! ## Reset -/

/-- 10_state.md section 12: the value of every element at the start of a run, under every configuration; and `State.reset`
is that state for the model's choice of configuration (log entry 3). Buffer storage, left unspecified, is not named. -/
def Obligations.ResetStateValues : Prop :=
  (∀ c : Config,
    (State.initial c).role = .stopped ∧
    (State.initial c).outBuf.head = 0 ∧ (State.initial c).outBuf.tail = 0 ∧ (State.initial c).outBuf.count = 0 ∧
    (State.initial c).inBuf.head = 0 ∧ (State.initial c).inBuf.tail = 0 ∧ (State.initial c).inBuf.count = 0 ∧
    (State.initial c).readyToSend = false ∧ (State.initial c).stopPending = false ∧ (State.initial c).err = 0x00 ∧
    (State.initial c).txIdle = true ∧ (State.initial c).txie = false ∧
    (State.initial c).tmrRunning = false ∧ (State.initial c).tmrRemaining = 0 ∧
    (State.initial c).stopPolls = 0 ∧ (State.initial c).critDepth = 0 ∧ (State.initial c).fault = none ∧
    (State.initial c).cfg = c) ∧
  State.reset = State.initial nominalConfig

/-- 70_reset_and_hazards.md R153, 10_state.md R40: RESET is enabled in every state with no fault recorded, sets every
element to its reset value, leaves `fault` unchanged and emits nothing; `fault` is none at the start of a run. That the
words still to come stay in `inbox` is the model's choice (log entry 17; R155 puts it outside the block). -/
def Obligations.ResetStepRestoresElements : Prop :=
  (∀ c : Config, (State.initial c).fault = none) ∧
  ∀ s : State, s.fault = none →
    ∃ t, exec .reset s = .next t ∧
      t.role = .stopped ∧
      t.outBuf.head = 0 ∧ t.outBuf.tail = 0 ∧ t.outBuf.count = 0 ∧
      t.inBuf.head = 0 ∧ t.inBuf.tail = 0 ∧ t.inBuf.count = 0 ∧
      t.readyToSend = false ∧ t.stopPending = false ∧ t.err = 0x00 ∧ t.txIdle = true ∧ t.txie = false ∧
      t.tmrRunning = false ∧ t.tmrRemaining = 0 ∧ t.stopPolls = 0 ∧ t.critDepth = 0 ∧
      t.fault = s.fault ∧ t.outputs = s.outputs ∧ t.cfg = s.cfg ∧ t.inbox = s.inbox

/-! ## Encoding -/

/-- 30_encoding.md sections 1-3: under an injective code map, the decoder reads every operation back from its word, with
every operand at every value. -/
def Obligations.EncodeDecodeRoundTrip : Prop :=
  ∀ (m : BusCodes) (i : Instr), m.Distinct → wellFormed m i = true → decode m (encode m i) = .ok i

/-- 30_encoding.md sections 1-3: every decoded word is the encoding of its operation, but for the DATA byte of the BUS
words that ignore it. -/
def Obligations.DecodeKeepsEveryReadBit : Prop :=
  ∀ (m : BusCodes) (w : OpWord) (i : Instr), decode m w = .ok i →
    wellFormed m i = true ∧
    (encode m i = w ∨
      (OpWord.port w = 0x01 ∧ (∀ d, i ≠ .slvDataAck d) ∧ (∀ d, i ≠ .slvDataNack d) ∧
        encode m i = opWord 0x01 (OpWord.code w) 0x00))

/-- The decoder of PORT, CODE and DATA agrees with spec/opcode_table.json on every 24-bit word, reserved ones included.
The event codes are the default map's (log entry 9). -/
def Obligations.DecoderIsOpcodeTable : Prop :=
  ∀ w : OpWord, (decode defaultBusCodes w).toOption.map Instr.mnemonic = tableMnemonic w

/-- Words written out from the encoding tables, one or more of each port, decode to what they stand for. The event codes
are the default map's (log entry 9). -/
def Obligations.SpecWordsDecode : Prop :=
  decode defaultBusCodes 0x010877 = .ok .startSent ∧
  decode defaultBusCodes 0x018031 = .ok (.slvDataAck 0x31) ∧
  decode defaultBusCodes 0x01F800 = .ok (.busDefault 0xF8) ∧
  decode defaultBusCodes 0x020041 = .ok (.serRx 0x41) ∧
  decode defaultBusCodes 0x030000 = .ok .serTxEmpty ∧
  decode defaultBusCodes 0x040101 = .ok (.timerExpire true) ∧
  decode defaultBusCodes 0x050500 = .ok .beginSend ∧
  decode defaultBusCodes 0x060000 = .ok .reset

/-! ## Steps -/

/-- The model's choice (log entry 1; by 20_memory.md R55 and 10_state.md R36 the block itself fetches nothing): when the next
word of the inbox decodes to an operation, the step is that operation's meaning at the state with the word taken. Nothing
else is added around it. -/
def Obligations.StepRunsDecodedOperation : Prop :=
  ∀ (s : State) (w : OpWord) (rest : List OpWord) (i : Instr),
    s.inbox = w :: rest → decode s.cfg.busCodes w = .ok i → step s = exec i { s with inbox := rest }

/-- 30_encoding.md section 6 (R77): a word no row of the opcode table matches is refused and recorded as Refused; a BUS word
never is. This holds under every code map. Three things are the model's: the word is taken from `inbox` (log entry 1), the
fault is a record in the next state (log entry 5), and inside a critical region too it is Refused (log entry 18). -/
def Obligations.ReservedWordRecordsRefused : Prop :=
  ∀ (s : State) (w : OpWord) (rest : List OpWord),
    s.fault = none → s.inbox = w :: rest →
    (tableMnemonic w = none → step s = .next { s with inbox := rest, fault := some .refused }) ∧
    (OpWord.port w = 0x01 → ∃ i, decode s.cfg.busCodes w = .ok i ∧ step s = exec i { s with inbox := rest })

/-- 60_exceptions.md R147: a recorded fault is final; no step and no operation, RESET included, goes on from it. -/
def Obligations.FaultedStateTakesNoStep : Prop :=
  ∀ (s : State) (k : Fault), s.fault = some k → step s = .fault k ∧ ∀ i : Instr, exec i s = .fault k

/-- The model's choice (log entry 5): where no fault is recorded, every step and every operation answers a next state; a
fault is a record in it. "Nothing is fatal: there is no halt state" (60_exceptions.md section 1). -/
def Obligations.FaultFreeStepAnswersNext : Prop :=
  ∀ s : State, s.fault = none → (∃ t, step s = .next t) ∧ ∀ i : Instr, ∃ t, exec i s = .next t

/-- The model's choice (log entry 1): with no event outstanding the block waits unchanged. -/
def Obligations.IdleBlockKeepsState : Prop :=
  ∀ s : State, s.fault = none → s.inbox = [] → step s = .next s

/-- The enabling table of 30_encoding.md section 5: a word presented while it is not enabled records EventNotEnabled and
changes nothing else; an enabled one never records it. -/
def Obligations.DisabledWordRecordsEventNotEnabled : Prop :=
  ∀ (i : Instr) (s : State), s.fault = none →
    (¬ Enabled i s → exec i s = .next { s with fault := some .eventNotEnabled }) ∧
    (Enabled i s → ∃ t, exec i s = .next t ∧ t.fault ≠ some .eventNotEnabled)

/-! ## Ring buffers -/

/-- 40_ring_buffer.md R80 and R86: a full buffer answers Full; any other push writes at `head`, advances it modulo C,
counts the byte, leaves every other slot alone and appends the byte to the buffered ones. -/
def Obligations.PushAppendsOrReportsFull : Prop :=
  ∀ (c : Nat) (b : RingBuf) (v : Byte), RingWf c b →
    if b.count = c then ringPush c b v = .ok none
    else ∃ q, ringPush c b v = .ok (some q) ∧ RingWf c q ∧
      q.head = (b.head + 1) % c ∧ q.tail = b.tail ∧ q.count = b.count + 1 ∧
      storeRead q.data b.head = some v ∧ (∀ a, a ≠ b.head → storeRead q.data a = storeRead b.data a) ∧
      contents c q = contents c b ++ [v]

/-- 40_ring_buffer.md R81: an empty buffer answers None; any other pop returns the oldest byte, advances `tail` modulo C,
and resets both indices when it empties the buffer; the storage is not cleared. -/
def Obligations.PopTakesOldest : Prop :=
  ∀ (c : Nat) (b : RingBuf), RingWf c b →
    if b.count = 0 then ringPop c b = .ok none
    else ∃ v q, ringPop c b = .ok (some (v, q)) ∧ RingWf c q ∧ contents c b = v :: contents c q ∧
      storeRead b.data b.tail = some v ∧ q.data = b.data ∧ q.count = b.count - 1 ∧
      (if b.count = 1 then q.head = 0 ∧ q.tail = 0 else q.head = b.head ∧ q.tail = (b.tail + 1) % c)

/-- 40_ring_buffer.md R82: Peek answers the oldest byte, or None, and has no buffer to change; so two peeks agree. -/
def Obligations.PeekReadsOldest : Prop :=
  ∀ (c : Nat) (b : RingBuf), RingWf c b →
    ringPeek c b = .ok (contents c b).head? ∧
    (0 < b.count → ∃ v, storeRead b.data b.tail = some v ∧ ringPeek c b = .ok (some v))

/-- 40_ring_buffer.md section on the round-trip law: pushing within the capacity and popping everything gives the old
bytes, then the pushed ones, in order, and leaves the buffer empty with both indices 0. -/
def Obligations.BufferRoundTrip : Prop :=
  ∀ (c : Nat) (b : RingBuf) (vs : List Byte), RingWf c b → 0 < b.count + vs.length → b.count + vs.length ≤ c →
    ∃ q r, pushAll c vs b = some q ∧ popMany c (b.count + vs.length) q = some (contents c b ++ vs, r) ∧
      r.count = 0 ∧ r.head = 0 ∧ r.tail = 0

/-! ## Serial channel -/

/-- 41_serial_channel.md R89: SER_RX pushes the byte or drops it and sets err bit 1; at the threshold it raises
ready_to_send; the timer is restarted or stopped only where the gate lets it; nothing else changes. -/
def Obligations.SerRxResult : Prop :=
  ∀ (b : Byte) (s : State), s.fault = none → s.critDepth = 0 → RingWf s.cfg.cOut s.outBuf →
    ∃ q : RingBuf,
      (if s.outBuf.count = s.cfg.cOut then q = s.outBuf
       else ringPush s.cfg.cOut s.outBuf b = .ok (some q) ∧
         contents s.cfg.cOut q = contents s.cfg.cOut s.outBuf ++ [b]) ∧
      exec (.serRx b) s = .next
        { s with
          outBuf := q
          err := if s.outBuf.count = s.cfg.cOut then s.err ||| 0x02 else s.err
          readyToSend := if s.cfg.threshold ≤ q.count then true else s.readyToSend
          tmrRunning :=
            if s.stopPending = false ∨ s.cfg.rxTimerOverridesStopPoll = true then
              (if s.cfg.threshold ≤ q.count then false else true)
            else s.tmrRunning
          tmrRemaining :=
            if s.stopPending = false ∨ s.cfg.rxTimerOverridesStopPoll = true then
              (if s.cfg.threshold ≤ q.count then 0 else s.cfg.tIdle)
            else s.tmrRemaining }

/-- 41_serial_channel.md R91: SER_TX_EMPTY writes the oldest byte of IN to the serial register, or, with IN empty, turns
its interrupt off and sets tx_idle. -/
def Obligations.SerTxEmptyResult : Prop :=
  ∀ s : State, s.fault = none → s.critDepth = 0 → s.txie = true → RingWf s.cfg.cIn s.inBuf →
    if s.inBuf.count = 0 then exec .serTxEmpty s = .next { s with txie := false, txIdle := true }
    else ∃ v, contents s.cfg.cIn s.inBuf = v :: contents s.cfg.cIn (afterPop s.cfg.cIn s.inBuf) ∧
      exec .serTxEmpty s = .next
        { s with inBuf := afterPop s.cfg.cIn s.inBuf, outputs := s.outputs ++ [.ser v] }

/-! ## Bus master -/

/-- 42_bus_master.md R93, 30_encoding.md R71: START_SENT emits CONTINUE with the target address and a write bit of 0. -/
def Obligations.StartSentResult : Prop :=
  ∀ s : State, s.fault = none → s.critDepth = 0 →
    exec .startSent s = .next { s with outputs := s.outputs ++ [.bus .contAck (some (s.cfg.targetAddr ++ 0#1))] }

/-- 42_bus_master.md R94: ADDR_ACK transmits the oldest byte of OUT without popping it; with OUT empty it ends the data. -/
def Obligations.AddrAckResult : Prop :=
  ∀ s : State, s.fault = none → s.critDepth = 0 → RingWf s.cfg.cOut s.outBuf →
    if s.outBuf.count = 0 then exec .addrAck s = .next (afterEndOfData s)
    else ∃ v, (contents s.cfg.cOut s.outBuf).head? = some v ∧
      exec .addrAck s = .next { s with outputs := s.outputs ++ [.bus .contAck (some v)] }

/-- 42_bus_master.md R95: DATA_ACK pops the acknowledged byte, then transmits the new oldest byte, or, when none is left,
issues STOP, sets stop_pending, clears stop_polls and arms the stop poll under the guard. -/
def Obligations.DataAckResult : Prop :=
  ∀ s : State, s.fault = none → s.critDepth = 0 → RingWf s.cfg.cOut s.outBuf →
    if s.outBuf.count = 0 then exec .dataAck s = .next (afterEndOfData s)
    else if s.outBuf.count = 1 then
      exec .dataAck s = .next (afterEndOfData { s with outBuf := afterPop s.cfg.cOut s.outBuf }) ∧
      contents s.cfg.cOut (afterPop s.cfg.cOut s.outBuf) = []
    else ∃ v w rest,
      contents s.cfg.cOut s.outBuf = v :: w :: rest ∧
      contents s.cfg.cOut (afterPop s.cfg.cOut s.outBuf) = w :: rest ∧
      exec .dataAck s = .next
        { s with outBuf := afterPop s.cfg.cOut s.outBuf, outputs := s.outputs ++ [.bus .contAck (some w)] }

/-- 42_bus_master.md R96-R99: both NACKs and plain arbitration loss issue STOP, go to Stopped, arm the backoff under the
guard, and change nothing else: no pop, ready_to_send and stop_pending as they were. -/
def Obligations.AbortEventsResult : Prop :=
  ∀ s : State, s.fault = none → s.critDepth = 0 →
    exec .addrNack s = .next (afterAbort s s.cfg.tBackoff) ∧
    exec .dataNack s = .next (afterAbort s s.cfg.tBackoff) ∧
    exec .arbLost s = .next (afterAbort s s.cfg.tBackoff)

/-! ## Bus slave and recovery -/

/-- 43_bus_slave.md R101: SLA_MATCH accepts only from Stopped, and withholds at once when IN is full. -/
def Obligations.SlaMatchResult : Prop :=
  ∀ s : State, s.fault = none → s.critDepth = 0 →
    exec .slaMatch s = .next
      (if s.role = .stopped then
        if s.inBuf.count = s.cfg.cIn then
          { s with role := .blockedReceiving, outputs := s.outputs ++ [.bus .withholdAck none] }
        else { s with role := .receiving, outputs := s.outputs ++ [.bus .contAck none] }
      else { s with outputs := s.outputs ++ [.bus .withholdAck none] })

/-- 43_bus_slave.md R102: SLA_MATCH_ARB sets ready_to_send when OUT holds a byte, then aborts with the short interval. -/
def Obligations.SlaMatchArbResult : Prop :=
  ∀ s : State, s.fault = none → s.critDepth = 0 →
    exec .slaMatchArb s = .next
      (afterAbort { s with readyToSend := if 0 < s.outBuf.count then true else s.readyToSend } s.cfg.tShort)

/-- 43_bus_slave.md R106: the fast path, the overflow, the push that fills IN, and the plain push. -/
def Obligations.SlvDataAckResult : Prop :=
  ∀ (d : Byte) (s : State), s.fault = none → s.critDepth = 0 → RingWf s.cfg.cIn s.inBuf →
    if s.inBuf.count = 0 ∧ s.txIdle = true then
      exec (.slvDataAck d) s = .next
        { s with txIdle := false, txie := true, outputs := s.outputs ++ [.ser d, .bus .contAck none] }
    else if s.inBuf.count = s.cfg.cIn then
      exec (.slvDataAck d) s = .next
        { s with err := s.err ||| 0x01, role := .blockedReceiving,
                 outputs := s.outputs ++ [.bus .withholdAck none] }
    else ∃ q, ringPush s.cfg.cIn s.inBuf d = .ok (some q) ∧
      contents s.cfg.cIn q = contents s.cfg.cIn s.inBuf ++ [d] ∧
      exec (.slvDataAck d) s = .next
        (if s.inBuf.count + 1 = s.cfg.cIn then
          { s with inBuf := q, role := .blockedReceiving, outputs := s.outputs ++ [.bus .withholdAck none] }
        else { s with inBuf := q, outputs := s.outputs ++ [.bus .contAck none] })

/-- 43_bus_slave.md R107: SLV_DATA_NACK discards its byte, ends BlockedReceiving, and re-asserts acknowledgment. -/
def Obligations.SlvDataNackResult : Prop :=
  ∀ (d : Byte) (s : State), s.fault = none → s.critDepth = 0 →
    exec (.slvDataNack d) s = .next
      { s with role := if s.role = .blockedReceiving then .receiving else s.role,
               outputs := s.outputs ++ [.bus .contAck none] }

/-- 43_bus_slave.md R108: STOP_RX goes to Stopped unconditionally, whatever the role, and stays addressable; it writes nothing
else. -/
def Obligations.StopRxResult : Prop :=
  ∀ s : State, s.fault = none → s.critDepth = 0 →
    exec .stopRx s = .next { s with role := .stopped, outputs := s.outputs ++ [.bus .contAck none] }

/-- 43_bus_slave.md R110: BUS_DEFAULT, whatever its code, aborts with the short interval. -/
def Obligations.BusDefaultResult : Prop :=
  ∀ (code : Byte) (s : State), s.fault = none → s.critDepth = 0 →
    exec (.busDefault code) s = .next (afterAbort s s.cfg.tShort)

/-! ## Retry timer -/

/-- 44_retry_timer.md R113: an enabled tick takes one from the countdown. -/
def Obligations.TimerTickResult : Prop :=
  ∀ s : State, s.fault = none → s.critDepth = 0 → s.tmrRunning = true → 0 < s.tmrRemaining →
    exec .timerTick s = .next { s with tmrRemaining := s.tmrRemaining - 1 }

/-- 44_retry_timer.md (R116): a due expiry resolves the pending intent, re-arms a busy stop poll, or, past MAX_STOP_POLLS,
records StopPollExhausted. That the faulting expiry keeps none of its writes, tmr_running = 0 included, is the model's
reading of 00_scope.md R12 and 60_exceptions.md R142 against vector T6 (log entry 16). -/
def Obligations.TimerExpireResult : Prop :=
  ∀ (busy : Bool) (s : State), s.fault = none → s.critDepth = 0 → s.tmrRunning = true → s.tmrRemaining = 0 →
    if s.stopPending = false then
      exec (.timerExpire busy) s = .next { s with tmrRunning := false, readyToSend := true }
    else if busy = false then
      exec (.timerExpire busy) s = .next
        { s with tmrRunning := false, stopPending := false, stopPolls := 0, role := .stopped }
    else if ∃ m, s.cfg.maxStopPolls = some m ∧ m ≤ s.stopPolls.toNat then
      exec (.timerExpire busy) s = .next { s with fault := some .stopPollExhausted }
    else
      exec (.timerExpire busy) s = .next
        { s with tmrRunning := true, tmrRemaining := s.cfg.tStopPoll,
                 stopPolls := BitVec.ofNat 8 (min (s.stopPolls.toNat + 1) 255) }

/-! ## Dispatcher operations -/

/-- 45_host_interface.md R122, R123, R127: the three reads return the role's number, the intent, and err, and write
nothing. They need no enabled interrupt. -/
def Obligations.HostReadResults : Prop :=
  ∀ s : State, s.fault = none →
    exec .readRole s = .next
      { s with outputs := s.outputs ++ [.ret (match s.role with
          | .stopped => 0x00 | .sending => 0x01 | .receiving => 0x02 | .blockedReceiving => 0x03)] } ∧
    exec .readReady s = .next
      { s with outputs := s.outputs ++ [.ret (match s.readyToSend with | true => 0x01 | false => 0x00)] } ∧
    exec .readErr s = .next { s with outputs := s.outputs ++ [.ret s.err] }

/-- 45_host_interface.md R124: CLEAR_READY withdraws the intent. -/
def Obligations.ClearReadyResult : Prop :=
  ∀ s : State, s.fault = none → exec .clearReady s = .next { s with readyToSend := false }

/-- 45_host_interface.md R125: READ_CLEAR_ERR returns err as it was and leaves it 0x00. -/
def Obligations.ReadClearErrResult : Prop :=
  ∀ s : State, s.fault = none →
    exec .readClearErr s = .next { s with err := 0x00, outputs := s.outputs ++ [.ret s.err] }

/-- 45_host_interface.md R126: BEGIN_SEND in its precondition clears the intent and, with OUT non-empty, goes to Sending and
issues START; outside it, HostContract is recorded and nothing else changes. -/
def Obligations.BeginSendResult : Prop :=
  ∀ s : State, s.fault = none →
    exec .beginSend s = .next
      (if s.role = .stopped ∧ s.readyToSend = true then
        if 0 < s.outBuf.count then
          { s with readyToSend := false, role := .sending, outputs := s.outputs ++ [.bus .sendStart none] }
        else { s with readyToSend := false }
      else { s with fault := some .hostContract })

/-- 45_host_interface.md R129, R130: CRIT_ENTER and CRIT_EXIT count the nesting depth, and record a fault at 255 and at 0. -/
def Obligations.CriticalRegionResults : Prop :=
  ∀ s : State, s.fault = none →
    (if s.critDepth = 255 then exec .critEnter s = .next { s with fault := some .critOverflow }
     else ∃ t, exec .critEnter s = .next t ∧ t = { s with critDepth := s.critDepth + 1 } ∧
       t.critDepth.toNat = s.critDepth.toNat + 1) ∧
    (if s.critDepth = 0 then exec .critExit s = .next { s with fault := some .critUnderflow }
     else ∃ t, exec .critExit s = .next t ∧ t = { s with critDepth := s.critDepth - 1 } ∧
       t.critDepth.toNat = s.critDepth.toNat - 1)

/-! ## Frames -/

/-- The "State written" lists of files 41-45 and the access table of 10_state.md section 9: for all twenty-five operations,
whenever one answers a next state, every element outside its list (`mayWrite`) is as before: in particular the
configuration and the inbox always, and the fault record unless this step sets it. That RESET too leaves the inbox alone is
the model's choice (log entry 17; 70_reset_and_hazards.md R155 puts it outside the block). -/
def Obligations.OperationFrame : Prop :=
  ∀ (i : Instr) (s t : State) (e : Element), exec i s = .next t → e ∉ mayWrite i → Same e s t

/-- Every byte of both buffers: SER_RX may change only the slot at OUT's head, SLV_DATA_ACK only the slot at IN's head, and
every other operation but RESET changes no byte of either buffer. -/
def Obligations.BufferByteFrame : Prop :=
  ∀ (i : Instr) (s t : State), exec i s = .next t → i ≠ .reset →
    ∀ a : Nat,
      ((∀ b, i = .serRx b → a ≠ s.outBuf.head) → storeRead t.outBuf.data a = storeRead s.outBuf.data a) ∧
      ((∀ d, i = .slvDataAck d → a ≠ s.inBuf.head) → storeRead t.inBuf.data a = storeRead s.inBuf.data a)

/-! ## Invariants -/

/-- Every run starts in a state that meets the invariant, under every legal configuration. -/
def Obligations.ResetMeetsInvariant : Prop :=
  (∀ c : Config, c.Legal → Inv (State.initial c)) ∧ nominalConfig.Legal

/-- 10_state.md sections 3 and 10: every step keeps the buffer invariant, the reserved err bits at 0, txie the opposite of
tx_idle, an idle transmitter with IN empty, a live send with OUT non-empty, and a running stop poll. -/
def Obligations.StepKeepsInvariant : Prop :=
  ∀ s t : State, Inv s → step s = .next t → Inv t

/-- 20_memory.md section 1: where the invariant holds, no step reads a slot that has no value or forms an index outside the
buffer. The second fault is the model's own (log entry 6). -/
def Obligations.BufferAccessesAreSound : Prop :=
  ∀ s t : State, Inv s → step s = .next t → t.fault ≠ some .unwrittenSlot ∧ t.fault ≠ some .noSuchSlot

/-- 43_bus_slave.md's role transition relation: these are the only steps that change role. -/
def Obligations.RoleTransitions : Prop :=
  ∀ (i : Instr) (s t : State), exec i s = .next t → t.role ≠ s.role →
    (i = .beginSend ∧ s.role = .stopped ∧ s.readyToSend = true ∧ 0 < s.outBuf.count ∧ t.role = .sending) ∨
    (i = .slaMatch ∧ s.role = .stopped ∧
      t.role = (if s.inBuf.count = s.cfg.cIn then .blockedReceiving else .receiving)) ∨
    ((i = .addrNack ∨ i = .dataNack ∨ i = .arbLost ∨ i = .slaMatchArb ∨ (∃ code, i = .busDefault code) ∨ i = .stopRx) ∧
      t.role = .stopped) ∨
    ((∃ d, i = .slvDataAck d) ∧ t.role = .blockedReceiving ∧ t.inBuf.count = s.cfg.cIn) ∨
    ((∃ d, i = .slvDataNack d) ∧ s.role = .blockedReceiving ∧ t.role = .receiving) ∨
    (i = .timerExpire false ∧ s.stopPending = true ∧ t.role = .stopped) ∨
    (i = .reset ∧ t.role = .stopped)

/-- 10_state.md section 4: the only steps that raise ready_to_send, and the only ones that drop it. -/
def Obligations.ReadyToSendTransitions : Prop :=
  ∀ (i : Instr) (s t : State), exec i s = .next t →
    (s.readyToSend = false → t.readyToSend = true →
      ((∃ b, i = .serRx b) ∧ s.cfg.threshold ≤ t.outBuf.count) ∨
      ((∃ k, i = .timerExpire k) ∧ s.stopPending = false) ∨
      (i = .slaMatchArb ∧ 0 < s.outBuf.count)) ∧
    (s.readyToSend = true → t.readyToSend = false → i = .beginSend ∨ i = .clearReady ∨ i = .reset)

/-- 10_state.md section 4: stop_pending rises only at the end of the data, with a STOP issued, and falls only when the
expiry observes completion, or at RESET. -/
def Obligations.StopPendingTransitions : Prop :=
  ∀ (i : Instr) (s t : State), exec i s = .next t →
    (s.stopPending = false → t.stopPending = true →
      (i = .dataAck ∨ i = .addrAck) ∧ t.outBuf.count = 0 ∧ t.outputs = s.outputs ++ [.bus .sendStop none]) ∧
    (s.stopPending = true → t.stopPending = false →
      (i = .timerExpire false ∧ t.role = .stopped) ∨ i = .reset)

/-- 10_state.md R23: an interrupt step only ORs its own bit in; only READ_CLEAR_ERR and RESET clear, and they clear every
bit together. -/
def Obligations.ErrBitsSticky : Prop :=
  ∀ (i : Instr) (s t : State), exec i s = .next t →
    if i = .readClearErr ∨ i = .reset then t.err = 0x00
    else t.err = s.err ∨ ((∃ d, i = .slvDataAck d) ∧ t.err = s.err ||| 0x01) ∨
      ((∃ b, i = .serRx b) ∧ t.err = s.err ||| 0x02)

/-- 42_bus_master.md section on R100, 30_encoding.md section 4: a BUS step that is not a fault drives exactly one directive;
no other step drives one but a BEGIN_SEND that starts a transaction; a data byte goes only with CONTINUE, in master
transmit. -/
def Obligations.OneDirectivePerBusStep : Prop :=
  ∀ (i : Instr) (s t : State), exec i s = .next t → t.fault = none →
    ∃ new, t.outputs = s.outputs ++ new ∧
      (busOutputs new).length =
        (if i.agent = .bus ∨ (i = .beginSend ∧ 0 < s.outBuf.count) then 1 else 0) ∧
      ∀ dir v, .bus dir (some v) ∈ new → dir = .contAck ∧ (i = .startSent ∨ i = .addrAck ∨ i = .dataAck)

/-! ## Streams -/

/-- 20_memory.md section 4 (serial output order): along any run without RESET, the bytes written to the serial register,
then those waiting in IN, are what was there before followed by the bus bytes accepted, in bus order. -/
def Obligations.SerialOutputOrder : Prop :=
  ∀ (is : List Instr) (s t : State), Inv s → .reset ∉ is → runAll is s = some t →
    serBytes t.outputs ++ contents t.cfg.cIn t.inBuf =
      serBytes s.outputs ++ contents s.cfg.cIn s.inBuf ++ collect acceptedIn is s

/-- 20_memory.md section 4 (FIFO order, loss points): along any run without RESET, the bytes DATA_ACK takes from OUT, then
those still waiting, are what was waiting before followed by the serial bytes accepted, in order. NACKs, arbitration loss
and unrecognized codes lose and duplicate none. -/
def Obligations.OutboundBytesKeptInOrder : Prop :=
  ∀ (is : List Instr) (s t : State), Inv s → .reset ∉ is → runAll is s = some t →
    collect takenOut is s ++ contents t.cfg.cOut t.outBuf =
      contents s.cfg.cOut s.outBuf ++ collect acceptedOut is s

/-! ## Sequences -/

/-- 45_host_interface.md's send step (the try_send expansion): inside the region the reads still hold, BEGIN_SEND never
breaks its contract, and the depth is restored. -/
def Obligations.TrySendKeepsContract : Prop :=
  ∀ s : State, s.fault = none → s.critDepth ≠ 255 →
    ∃ t, runAll (pseudoTrySend s) s = some t ∧ t.critDepth = s.critDepth ∧
      t.role = (if s.role = .stopped ∧ s.readyToSend = true ∧ 0 < s.outBuf.count then .sending else s.role) ∧
      t.readyToSend = (if s.role = .stopped then false else s.readyToSend) ∧
      t.outBuf = s.outBuf ∧ t.inBuf = s.inBuf ∧ t.stopPending = s.stopPending ∧ t.err = s.err ∧
      t.tmrRunning = s.tmrRunning ∧ t.tmrRemaining = s.tmrRemaining

/-- 44_retry_timer.md and 41_serial_channel.md (coalescing): a running countdown, given its remaining ticks and its expiry,
ends stopped, raises ready_to_send when no stop is pending, and confirms the stop when one is. -/
def Obligations.FlushResolvesIntent : Prop :=
  ∀ s : State, s.fault = none → s.critDepth = 0 → s.tmrRunning = true →
    runAll (pseudoFlush s) s = some
      (if s.stopPending = true then
        { s with tmrRunning := false, tmrRemaining := 0, stopPending := false, stopPolls := 0, role := .stopped }
      else { s with tmrRunning := false, tmrRemaining := 0, readyToSend := true })

/-- 70_reset_and_hazards.md section 3 (the backoff): after a NACK or arbitration loss with the timer stopped and the intent
down, in every run with fewer than T_BACKOFF ticks and without SER_RX, SLA_MATCH_ARB or RESET, no BEGIN_SEND and no
TIMER_EXPIRE runs, the backoff counts down undisturbed, and BEGIN_SEND still breaks its contract. After all T_BACKOFF
ticks, with no stop pending, the expiry raises the intent, with OUT as it was at the NACK. -/
def Obligations.NackBackoffHoldsOffRetry : Prop :=
  ∀ (i : Instr) (s : State), (i = .addrNack ∨ i = .dataNack ∨ i = .arbLost) →
    s.fault = none → s.critDepth = 0 → s.tmrRunning = false → s.readyToSend = false →
    (∀ (is : List Instr) (t : State), (∀ b, .serRx b ∉ is) → .slaMatchArb ∉ is → .reset ∉ is →
      is.count .timerTick < s.cfg.tBackoff → runAll (i :: is) s = some t →
      .beginSend ∉ is ∧ (∀ k, .timerExpire k ∉ is) ∧ t.readyToSend = false ∧ t.tmrRunning = true ∧
      t.tmrRemaining = s.cfg.tBackoff - is.count .timerTick ∧
      exec .beginSend t = .next { t with fault := some .hostContract }) ∧
    (s.stopPending = false → ∀ k : Bool,
      ∃ t, runAll (i :: (pseudoTicks s.cfg.tBackoff ++ [.timerExpire k])) s = some t ∧
        t.readyToSend = true ∧ t.tmrRunning = false ∧ t.role = .stopped ∧ t.outBuf = s.outBuf)

/-- 44_retry_timer.md (the stop-poll bound): with MAX_STOP_POLLS = m, the m busy polls of one confirmation re-arm and the
next busy expiry records StopPollExhausted. For m up to 255, where stop_polls does not saturate first (log entry 10). That
the faulting expiry leaves all else as it was, tmr_running included, is the model's reading against vector T6
(log entry 16). -/
def Obligations.StopPollBound : Prop :=
  ∀ (s : State) (m : Nat), s.fault = none → s.critDepth = 0 → s.stopPending = true → s.tmrRunning = true →
    s.tmrRemaining = 0 → s.stopPolls = 0 → s.cfg.maxStopPolls = some m → m ≤ 255 →
    ∃ t, runAll (busyPolls s.cfg.tStopPoll m) s = some t ∧ t.stopPolls.toNat = m ∧ t.stopPending = true ∧
      exec (.timerExpire true) t = .next { t with fault := some .stopPollExhausted }

/-- 44_retry_timer.md (boundedness of stop confirmation): with the default gate, in every endless run without RESET that is
fair to the timer (F1), ends its busy reports (F3) and ends its critical regions (F4), every pending stop is confirmed:
some later `TIMER_EXPIRE 0` takes role to Stopped. F1 as strong fairness is the model's reading of 60_exceptions.md
R141 (log entry 11). -/
def Obligations.StopConfirmationTerminates : Prop :=
  ∀ (σ : Nat → Instr) (st : Nat → State), EndlessRun σ st → Inv (st 0) →
    (st 0).cfg.rxTimerOverridesStopPoll = false → (∀ n, σ n ≠ .reset) →
    FairTimer σ st → BusyEnds σ st → RegionsEnd st →
    ∀ n, (st n).stopPending = true →
      ∃ m, n ≤ m ∧ σ m = .timerExpire false ∧ (st m).stopPending = true ∧ (st (m + 1)).role = .stopped ∧
        (st (m + 1)).stopPending = false

/-- 41_serial_channel.md, 20_memory.md section 4 and 60_exceptions.md section 2: in every endless run without RESET that is
fair to pending events (F2) and ends its critical regions (F4), every byte waiting in IN is written to the serial
register, after those already written and in order, unless from some point on that register never again can take a byte.
F2 as strong fairness, and `pend` for what the peripherals hold, are the model's reading of R137, R138 and R141
(log entry 11). -/
def Obligations.WaitingBytesAreSent : Prop :=
  ∀ (σ : Nat → Instr) (st : Nat → State) (pend : Nat → Agent → Prop),
    EndlessRun σ st → Inv (st 0) → (∀ n, σ n ≠ .reset) →
    PendingTrace σ st pend → FairEvents σ st pend → RegionsEnd st →
    ∀ n, ∃ m, n ≤ m ∧
      (serBytes (st n).outputs ++ contents (st n).cfg.cIn (st n).inBuf <+: serBytes (st m).outputs ∨
        ∀ k, m ≤ k → ¬ pend k .stx)

/-- 45_host_interface.md (what the Dispatcher contract does not touch): replacing stop_pending, the timer, tx_idle, txie, IN
and the storage and indices of OUT changes no Dispatcher operation's result, and none of them changes these. -/
def Obligations.DispatcherBlindSpots : Prop :=
  ∀ (i : Instr) (s u : State), i.agent = .host →
    exec i (withHidden s u) = mapNext (fun t => withHidden t u) (exec i s)

/-- 00_scope.md section 5 and 60_exceptions.md section 5: no rule reads TICK or OWN_ADDR. -/
def Obligations.TickAndOwnAddressUnread : Prop :=
  ∀ (i : Instr) (s : State) (tick : Nat) (own : BitVec 7),
    exec i (withUnread s tick own) = mapNext (fun t => withUnread t tick own) (exec i s)

/-- 70_reset_and_hazards.md (stale stop confirmation, kept by 92_eei_decisions.md D41): a BEGIN_SEND while a stop poll is due
starts a transaction, and the old confirmation then writes Stopped in the middle of it. -/
def Obligations.StaleConfirmationAdmitted : Prop :=
  ∀ s : State, s.fault = none → s.critDepth = 0 → s.role = .stopped → s.readyToSend = true → s.stopPending = true →
    s.tmrRunning = true → s.tmrRemaining = 0 → 0 < s.outBuf.count →
    runAll [.beginSend, .timerExpire false] s = some
      { s with readyToSend := false, tmrRunning := false, stopPending := false, stopPolls := 0, role := .stopped,
               outputs := s.outputs ++ [.bus .sendStart none] }

/-- 70_reset_and_hazards.md (backpressure with IN persistently full): the byte after a withheld acknowledgment is drained
without a flag, and the next one overflows, sets err bit 0 and withholds again; IN keeps its bytes. -/
def Obligations.PersistentBackpressure : Prop :=
  ∀ (d e : Byte) (s : State), s.fault = none → s.critDepth = 0 → s.role = .blockedReceiving →
    s.inBuf.count = s.cfg.cIn → 0 < s.cfg.cIn →
    runAll [.slvDataNack d, .slvDataAck e] s = some
      { s with err := s.err ||| 0x01,
               outputs := s.outputs ++ [.bus .contAck none, .bus .withholdAck none] }

/-- 60_exceptions.md section 2 (F2 of R141, for SRX and BUS): in every endless run without RESET that is fair to pending
events and ends its critical regions, a received byte that is pending is pushed to OUT, or dropped with err bit 1 set when
OUT is full, and a bus event that is pending is answered with exactly one directive. F2 as strong fairness, and `pend` for
what the peripherals hold, are the model's reading of R137, R138 and R141 (log entry 11). -/
def Obligations.PendingEventsAreServed : Prop :=
  ∀ (σ : Nat → Instr) (st : Nat → State) (pend : Nat → Agent → Prop),
    EndlessRun σ st → Inv (st 0) → (∀ n, σ n ≠ .reset) →
    PendingTrace σ st pend → FairEvents σ st pend → RegionsEnd st →
    ∀ n,
      (pend n .srx → ∃ m b, n ≤ m ∧ σ m = .serRx b ∧
        (if (st m).outBuf.count = (st m).cfg.cOut then
          (st (m + 1)).outBuf = (st m).outBuf ∧ (st (m + 1)).err = (st m).err ||| 0x02
        else
          contents (st (m + 1)).cfg.cOut (st (m + 1)).outBuf = contents (st m).cfg.cOut (st m).outBuf ++ [b])) ∧
      (pend n .bus → ∃ m dir v, n ≤ m ∧ (σ m).agent = .bus ∧
        busOutputs (st (m + 1)).outputs = busOutputs (st m).outputs ++ [.bus dir v])
end

