-- ==== Sys2Proof/Laws/Decode.lean ====
section
/-! SUPPORT. The fields of an operation word. -/

namespace Sys2Proof.Laws

@[simp] theorem port_opWord (p c d : Byte) : OpWord.port (opWord p c d) = p := by
  ext i hi
  simp [OpWord.port, opWord]
  grind

@[simp] theorem code_opWord (p c d : Byte) : OpWord.code (opWord p c d) = c := by
  ext i hi
  simp [OpWord.code, opWord]
  grind

@[simp] theorem data_opWord (p c d : Byte) : OpWord.data (opWord p c d) = d := by
  ext i hi
  simp [OpWord.data, opWord]
  grind

/-- A word is its three fields (R61). -/
theorem opWord_fields (w : OpWord) : opWord (OpWord.port w) (OpWord.code w) (OpWord.data w) = w := by
  ext i hi
  simp [OpWord.port, OpWord.code, OpWord.data, opWord]
  grind

end Sys2Proof.Laws
end

