-- ==== Sys2Proof/Laws/Store.lean ====
section
/-! SUPPORT. Buffer storage: a read after a write, and the canonical form under every operation. -/

namespace Sys2Proof.Laws

open Sys2Proof.Machine Sys2Proof.Safety

theorem storeRead_storeWrite_same (m : Store) (a : Nat) (v : Byte) : storeRead (storeWrite m a v) a = some v := by
  induction m with
  | nil => simp [storeWrite, storeRead]
  | cons x rest ih =>
    obtain ⟨k, w⟩ := x
    simp only [storeWrite]
    split
    · simp [storeRead]
    · split
      · simp [storeRead]
      · rename_i h
        simp [storeRead, ih, Ne.symm h]

theorem storeRead_storeWrite_other (m : Store) {a c : Nat} (v : Byte) (h : c ≠ a) :
    storeRead (storeWrite m a v) c = storeRead m c := by
  induction m with
  | nil => simp [storeWrite, storeRead, Ne.symm h]
  | cons x rest ih =>
    obtain ⟨k, w⟩ := x
    simp only [storeWrite]
    split
    · simp [storeRead, Ne.symm h]
    · split
      · rename_i hk
        simp [storeRead, ← hk, Ne.symm h]
      · simp [storeRead, ih]

theorem mem_storeWrite {m : Store} {a : Nat} {v : Byte} {x : Nat × Byte} (h : x ∈ storeWrite m a v) :
    x = (a, v) ∨ x ∈ m := by
  induction m with
  | nil => simpa [storeWrite] using h
  | cons y rest ih =>
    obtain ⟨k, w⟩ := y
    simp only [storeWrite] at h
    split at h
    · simpa using h
    · split at h
      · rcases List.mem_cons.1 h with h | h
        · exact .inl h
        · exact .inr (List.mem_cons_of_mem _ h)
      · rcases List.mem_cons.1 h with h | h
        · exact .inr (by simp [h])
        · rcases ih h with h | h
          · exact .inl h
          · exact .inr (List.mem_cons_of_mem _ h)

/-- A write keeps the canonical form. -/
theorem storeWf_storeWrite {m : Store} (a : Nat) (v : Byte) (h : storeWf m) : storeWf (storeWrite m a v) := by
  induction m with
  | nil => simp [storeWrite, storeWf]
  | cons x rest ih =>
    obtain ⟨k, w⟩ := x
    have hrest := List.pairwise_cons.1 h
    simp only [storeWrite]
    split
    · rename_i hak
      refine List.pairwise_cons.2 ⟨fun y hy => ?_, h⟩
      rcases List.mem_cons.1 hy with hy | hy
      · simpa [hy] using hak
      · exact lt_trans hak (hrest.1 y hy)
    · split
      · rename_i hak
        subst hak
        exact List.pairwise_cons.2 hrest
      · rename_i h1 h2
        refine List.pairwise_cons.2 ⟨fun y hy => ?_, ih hrest.2⟩
        rcases mem_storeWrite hy with hy | hy
        · subst hy
          exact lt_of_le_of_ne (not_lt.1 h1) (Ne.symm h2)
        · exact hrest.1 y hy

/-- A write in range keeps every index in range. -/
theorem storeBound_storeWrite {m : Store} {c a : Nat} (v : Byte) (ha : a < c) (h : ∀ x ∈ m, x.1 < c) :
    ∀ x ∈ storeWrite m a v, x.1 < c := by
  intro x hx
  rcases mem_storeWrite hx with hx | hx
  · simpa [hx] using ha
  · exact h x hx

/-- A checked write keeps the canonical form. -/
theorem memWrite_storeWf {c : Nat} {b q : RingBuf} {i : Nat} {v : Byte} (h : memWrite c b i v = .ok q)
    (hb : storeWf b.data) : storeWf q.data := by
  unfold memWrite at h
  split at h
  · obtain rfl := Except.ok.inj h
    exact storeWf_storeWrite _ _ hb
  · cases h

/-- The storage after reset is in canonical form, and lists nothing. -/
theorem reset_storeWf : storeWf State.reset.outBuf.data ∧ storeWf State.reset.inBuf.data ∧
    State.reset.outBuf.data = [] ∧ State.reset.inBuf.data = [] := by
  simp [State.reset, State.initial, RingBuf.empty, storeWf]

end Sys2Proof.Laws
end

