-- ==== Sys2Proof/Laws/RingBuffer.lean ====
section
/-! SUPPORT. The ring-buffer micro-operations: what each can answer, and what it does to the buffered bytes. -/

namespace Sys2Proof.Laws

open Sys2Proof.Machine Sys2Proof.Safety

/-- Everything a push can answer (R80). -/
theorem ringPush_cases (c : Nat) (b : RingBuf) (v : Byte) :
    (b.count = c ∧ ringPush c b v = .ok none) ∨
    (b.count ≠ c ∧ b.head < c ∧ ringPush c b v = .ok (some
      { b with data := storeWrite b.data b.head v, head := (b.head + 1) % c, count := b.count + 1 })) ∨
    (b.count ≠ c ∧ ¬ b.head < c ∧ ringPush c b v = .error .noSuchSlot) := by
  by_cases h : b.count = c
  · exact .inl ⟨h, by simp [ringPush, h]⟩
  · by_cases hh : b.head < c
    · exact .inr (.inl ⟨h, hh, by simp [ringPush, memWrite, nextIndex, h, hh]⟩)
    · exact .inr (.inr ⟨h, hh, by simp [ringPush, memWrite, h, hh]⟩)

/-- Everything a pop can answer (R81). -/
theorem ringPop_cases (c : Nat) (b : RingBuf) :
    (b.count = 0 ∧ ringPop c b = .ok none) ∨
    (0 < b.count ∧ ∃ v, b.tail < c ∧ storeRead b.data b.tail = some v ∧ ringPop c b = .ok (some (v, afterPop c b))) ∨
    (0 < b.count ∧ ((b.tail < c ∧ storeRead b.data b.tail = none ∧ ringPop c b = .error .unwrittenSlot) ∨
      (¬ b.tail < c ∧ ringPop c b = .error .noSuchSlot))) := by
  by_cases h : b.count = 0
  · exact .inl ⟨h, by simp [ringPop, h]⟩
  · have hpos : 0 < b.count := Nat.pos_of_ne_zero h
    by_cases ht : b.tail < c
    · cases hr : storeRead b.data b.tail with
      | none => exact .inr (.inr ⟨hpos, .inl ⟨ht, rfl, by simp [ringPop, memRead, h, ht, hr]⟩⟩)
      | some v =>
        refine .inr (.inl ⟨hpos, v, ht, rfl, ?_⟩)
        by_cases h1 : b.count = 1
        · simp [ringPop, memRead, afterPop, ht, hr, h1]
        · have : b.count - 1 ≠ 0 := by omega
          simp [ringPop, memRead, afterPop, nextIndex, h, ht, hr, h1, this]
    · exact .inr (.inr ⟨hpos, .inr ⟨ht, by simp [ringPop, memRead, h, ht]⟩⟩)

/-- Everything a peek can answer (R82). -/
theorem ringPeek_cases (c : Nat) (b : RingBuf) :
    (b.count = 0 ∧ ringPeek c b = .ok none) ∨
    (0 < b.count ∧ ∃ v, b.tail < c ∧ storeRead b.data b.tail = some v ∧ ringPeek c b = .ok (some v)) ∨
    (0 < b.count ∧ ((b.tail < c ∧ storeRead b.data b.tail = none ∧ ringPeek c b = .error .unwrittenSlot) ∨
      (¬ b.tail < c ∧ ringPeek c b = .error .noSuchSlot))) := by
  by_cases h : b.count = 0
  · exact .inl ⟨h, by simp [ringPeek, h]⟩
  · have hpos : 0 < b.count := Nat.pos_of_ne_zero h
    by_cases ht : b.tail < c
    · cases hr : storeRead b.data b.tail with
      | none => exact .inr (.inr ⟨hpos, .inl ⟨ht, rfl, by simp [ringPeek, memRead, h, ht, hr]⟩⟩)
      | some v => exact .inr (.inl ⟨hpos, v, ht, rfl, by simp [ringPeek, memRead, h, ht, hr]⟩)
    · exact .inr (.inr ⟨hpos, .inr ⟨ht, by simp [ringPeek, memRead, h, ht]⟩⟩)

/-- An index past the tail, unfolded: it wraps at most once (R84). -/
theorem slot_eq {c t k : Nat} (ht : t < c) (hk : k ≤ c) : (t + k) % c = if t + k < c then t + k else t + k - c := by
  split
  · exact Nat.mod_eq_of_lt ‹_›
  · rw [Nat.mod_eq_sub_mod (by omega), Nat.mod_eq_of_lt (by omega)]

theorem next_slot {c t : Nat} (ht : t < c) : (t + 1) % c = if t + 1 < c then t + 1 else 0 := by
  rw [slot_eq ht (by omega)]
  split <;> omega

/-- `head` is a legal index (R49). -/
theorem ringWf_head_lt {c : Nat} {b : RingBuf} (h : RingWf c b) : b.head < c := by
  rw [h.headEq]
  exact Nat.mod_lt _ (by have := h.tailLt; omega)

/-- The oldest slot of a non-empty buffer is written (R47). -/
theorem ringWf_tail_written {c : Nat} {b : RingBuf} (h : RingWf c b) (hc : 0 < b.count) :
    ∃ v, storeRead b.data b.tail = some v := by
  have h0 := h.written 0 hc
  rw [Nat.add_zero, Nat.mod_eq_of_lt h.tailLt] at h0
  exact Option.isSome_iff_exists.1 h0

/-- A list of written slots has one byte per slot. -/
theorem filterMap_length {f : Nat → Option Byte} {l : List Nat} (h : ∀ k ∈ l, (f k).isSome = true) :
    (l.filterMap f).length = l.length := by
  induction l with
  | nil => rfl
  | cons a as ih =>
    obtain ⟨v, hv⟩ := Option.isSome_iff_exists.1 (h a (by simp))
    simp [hv, ih fun k hk => h k (by simp [hk])]

/-- A well-formed buffer holds `count` bytes. -/
theorem contents_length {c : Nat} {b : RingBuf} (h : RingWf c b) : (contents c b).length = b.count := by
  unfold contents
  rw [filterMap_length fun k hk => h.written k (List.mem_range.1 hk), List.length_range]

/-- The record a push leaves. -/
def pushed (c : Nat) (b : RingBuf) (v : Byte) : RingBuf :=
  { b with data := storeWrite b.data b.head v, head := (b.head + 1) % c, count := b.count + 1 }

theorem pushed_slot {c : Nat} {b : RingBuf} {k : Nat} (v : Byte) (h : RingWf c b) (hc : b.count ≠ c)
    (hk : k < b.count) :
    storeRead (pushed c b v).data ((b.tail + k) % c) = storeRead b.data ((b.tail + k) % c) := by
  refine storeRead_storeWrite_other _ _ ?_
  have h1 := h.countLe
  have h2 := h.tailLt
  rw [h.headEq, slot_eq h2 (by omega), slot_eq h2 h1]
  split <;> split <;> omega

theorem pushed_last {c : Nat} {b : RingBuf} (v : Byte) (h : RingWf c b) :
    storeRead (pushed c b v).data ((b.tail + b.count) % c) = some v := by
  rw [← h.headEq]
  exact storeRead_storeWrite_same _ _ _

/-- A push appends its byte to the buffered ones (R80). -/
theorem contents_pushed {c : Nat} {b : RingBuf} (v : Byte) (h : RingWf c b) (hc : b.count ≠ c) :
    contents c (pushed c b v) = contents c b ++ [v] := by
  have hcount : (pushed c b v).count = b.count + 1 := rfl
  have htail : (pushed c b v).tail = b.tail := rfl
  unfold contents
  rw [hcount, htail, List.range_succ, List.filterMap_append]
  congr 1
  · exact List.filterMap_congr fun k hk => pushed_slot v h hc (List.mem_range.1 hk)
  · simp [pushed_last v h]

/-- A push keeps the buffer invariant (R19). -/
theorem ringWf_pushed {c : Nat} {b : RingBuf} (v : Byte) (h : RingWf c b) (hc : b.count ≠ c) :
    RingWf c (pushed c b v) := by
  have h1 := h.countLe
  have h2 := h.tailLt
  have hh := ringWf_head_lt h
  refine ⟨by simp only [pushed]; omega, h2, ?_, storeWf_storeWrite _ _ h.canonical,
    storeBound_storeWrite _ hh h.bounded, fun k hk => ?_⟩
  · simp only [pushed]
    rw [h.headEq, Nat.mod_add_mod]
    rfl
  · have hk' : k < b.count ∨ k = b.count := by simp only [pushed] at hk; omega
    have htail : (pushed c b v).tail = b.tail := rfl
    rw [htail]
    rcases hk' with hk' | rfl
    · rw [pushed_slot v h hc hk']
      exact h.written k hk'
    · rw [pushed_last v h]
      rfl

/-- The slots after the oldest, renumbered from the next index. -/
theorem popped_slot (c t k : Nat) : ((t + 1) % c + k) % c = (t + (k + 1)) % c := by
  rw [Nat.mod_add_mod]
  congr 1
  omega

/-- A pop takes the oldest buffered byte (R81). -/
theorem contents_afterPop {c : Nat} {b : RingBuf} {v : Byte} (h : RingWf c b) (hc : 0 < b.count)
    (hv : storeRead b.data b.tail = some v) : contents c b = v :: contents c (afterPop c b) := by
  obtain ⟨n, hn⟩ : ∃ n, b.count = n + 1 := ⟨b.count - 1, by omega⟩
  have h1 := h.countLe
  unfold contents
  rw [hn, List.range_succ_eq_map, List.filterMap_cons, Nat.add_zero, Nat.mod_eq_of_lt h.tailLt, hv]
  simp only [List.cons.injEq, true_and]
  by_cases h1' : b.count = 1
  · obtain rfl : n = 0 := by omega
    simp [afterPop, h1']
  · simp only [afterPop, h1', if_false, List.filterMap_map]
    rw [hn, Nat.add_sub_cancel]
    refine List.filterMap_congr fun k hk => ?_
    have hk := List.mem_range.1 hk
    simp only [Function.comp]
    rw [popped_slot]

/-- A pop keeps the buffer invariant (R19), the reset of the indices included (R81). -/
theorem ringWf_afterPop {c : Nat} {b : RingBuf} (h : RingWf c b) (hc : 0 < b.count) : RingWf c (afterPop c b) := by
  have h1 := h.countLe
  have h2 := h.tailLt
  unfold Safety.afterPop
  split
  · exact ⟨Nat.zero_le _, by simp only; omega, by simp, h.canonical, h.bounded, by simp⟩
  · rename_i hne
    refine ⟨by simp only; omega, Nat.mod_lt _ (by omega), ?_, h.canonical, h.bounded, fun k hk => ?_⟩
    · simp only
      rw [h.headEq, Nat.mod_add_mod]
      congr 1
      omega
    · simp only at hk ⊢
      rw [popped_slot]
      exact h.written (k + 1) (by omega)

end Sys2Proof.Laws
end

