-- ==== Sys2Proof/Laws/State.lean ====
section
/-! SUPPORT. One lemma per field for each named update of the state, so that no later proof unfolds an update; and the
composite updates as one record each. -/

namespace Sys2Proof.Laws

open Sys2Proof.Machine

/-! ### emitBus -/

@[simp] theorem emitBus_role (s : State) (d : Directive) (v : Option Byte) : (emitBus s d v).role = s.role := rfl
@[simp] theorem emitBus_outBuf (s : State) (d : Directive) (v : Option Byte) : (emitBus s d v).outBuf = s.outBuf := rfl
@[simp] theorem emitBus_inBuf (s : State) (d : Directive) (v : Option Byte) : (emitBus s d v).inBuf = s.inBuf := rfl
@[simp] theorem emitBus_readyToSend (s : State) (d : Directive) (v : Option Byte) : (emitBus s d v).readyToSend = s.readyToSend := rfl
@[simp] theorem emitBus_stopPending (s : State) (d : Directive) (v : Option Byte) : (emitBus s d v).stopPending = s.stopPending := rfl
@[simp] theorem emitBus_err (s : State) (d : Directive) (v : Option Byte) : (emitBus s d v).err = s.err := rfl
@[simp] theorem emitBus_txIdle (s : State) (d : Directive) (v : Option Byte) : (emitBus s d v).txIdle = s.txIdle := rfl
@[simp] theorem emitBus_txie (s : State) (d : Directive) (v : Option Byte) : (emitBus s d v).txie = s.txie := rfl
@[simp] theorem emitBus_tmrRunning (s : State) (d : Directive) (v : Option Byte) : (emitBus s d v).tmrRunning = s.tmrRunning := rfl
@[simp] theorem emitBus_tmrRemaining (s : State) (d : Directive) (v : Option Byte) : (emitBus s d v).tmrRemaining = s.tmrRemaining := rfl
@[simp] theorem emitBus_stopPolls (s : State) (d : Directive) (v : Option Byte) : (emitBus s d v).stopPolls = s.stopPolls := rfl
@[simp] theorem emitBus_critDepth (s : State) (d : Directive) (v : Option Byte) : (emitBus s d v).critDepth = s.critDepth := rfl
@[simp] theorem emitBus_fault (s : State) (d : Directive) (v : Option Byte) : (emitBus s d v).fault = s.fault := rfl
@[simp] theorem emitBus_cfg (s : State) (d : Directive) (v : Option Byte) : (emitBus s d v).cfg = s.cfg := rfl
@[simp] theorem emitBus_inbox (s : State) (d : Directive) (v : Option Byte) : (emitBus s d v).inbox = s.inbox := rfl
@[simp] theorem emitBus_outputs (s : State) (d : Directive) (v : Option Byte) : (emitBus s d v).outputs = s.outputs ++ [.bus d v] := rfl

/-! ### emitSer -/

@[simp] theorem emitSer_role (s : State) (b : Byte) : (emitSer s b).role = s.role := rfl
@[simp] theorem emitSer_outBuf (s : State) (b : Byte) : (emitSer s b).outBuf = s.outBuf := rfl
@[simp] theorem emitSer_inBuf (s : State) (b : Byte) : (emitSer s b).inBuf = s.inBuf := rfl
@[simp] theorem emitSer_readyToSend (s : State) (b : Byte) : (emitSer s b).readyToSend = s.readyToSend := rfl
@[simp] theorem emitSer_stopPending (s : State) (b : Byte) : (emitSer s b).stopPending = s.stopPending := rfl
@[simp] theorem emitSer_err (s : State) (b : Byte) : (emitSer s b).err = s.err := rfl
@[simp] theorem emitSer_txIdle (s : State) (b : Byte) : (emitSer s b).txIdle = s.txIdle := rfl
@[simp] theorem emitSer_txie (s : State) (b : Byte) : (emitSer s b).txie = s.txie := rfl
@[simp] theorem emitSer_tmrRunning (s : State) (b : Byte) : (emitSer s b).tmrRunning = s.tmrRunning := rfl
@[simp] theorem emitSer_tmrRemaining (s : State) (b : Byte) : (emitSer s b).tmrRemaining = s.tmrRemaining := rfl
@[simp] theorem emitSer_stopPolls (s : State) (b : Byte) : (emitSer s b).stopPolls = s.stopPolls := rfl
@[simp] theorem emitSer_critDepth (s : State) (b : Byte) : (emitSer s b).critDepth = s.critDepth := rfl
@[simp] theorem emitSer_fault (s : State) (b : Byte) : (emitSer s b).fault = s.fault := rfl
@[simp] theorem emitSer_cfg (s : State) (b : Byte) : (emitSer s b).cfg = s.cfg := rfl
@[simp] theorem emitSer_inbox (s : State) (b : Byte) : (emitSer s b).inbox = s.inbox := rfl
@[simp] theorem emitSer_outputs (s : State) (b : Byte) : (emitSer s b).outputs = s.outputs ++ [.ser b] := rfl

/-! ### hostReturn -/

@[simp] theorem hostReturn_role (s : State) (v : Byte) : (hostReturn s v).role = s.role := rfl
@[simp] theorem hostReturn_outBuf (s : State) (v : Byte) : (hostReturn s v).outBuf = s.outBuf := rfl
@[simp] theorem hostReturn_inBuf (s : State) (v : Byte) : (hostReturn s v).inBuf = s.inBuf := rfl
@[simp] theorem hostReturn_readyToSend (s : State) (v : Byte) : (hostReturn s v).readyToSend = s.readyToSend := rfl
@[simp] theorem hostReturn_stopPending (s : State) (v : Byte) : (hostReturn s v).stopPending = s.stopPending := rfl
@[simp] theorem hostReturn_err (s : State) (v : Byte) : (hostReturn s v).err = s.err := rfl
@[simp] theorem hostReturn_txIdle (s : State) (v : Byte) : (hostReturn s v).txIdle = s.txIdle := rfl
@[simp] theorem hostReturn_txie (s : State) (v : Byte) : (hostReturn s v).txie = s.txie := rfl
@[simp] theorem hostReturn_tmrRunning (s : State) (v : Byte) : (hostReturn s v).tmrRunning = s.tmrRunning := rfl
@[simp] theorem hostReturn_tmrRemaining (s : State) (v : Byte) : (hostReturn s v).tmrRemaining = s.tmrRemaining := rfl
@[simp] theorem hostReturn_stopPolls (s : State) (v : Byte) : (hostReturn s v).stopPolls = s.stopPolls := rfl
@[simp] theorem hostReturn_critDepth (s : State) (v : Byte) : (hostReturn s v).critDepth = s.critDepth := rfl
@[simp] theorem hostReturn_fault (s : State) (v : Byte) : (hostReturn s v).fault = s.fault := rfl
@[simp] theorem hostReturn_cfg (s : State) (v : Byte) : (hostReturn s v).cfg = s.cfg := rfl
@[simp] theorem hostReturn_inbox (s : State) (v : Byte) : (hostReturn s v).inbox = s.inbox := rfl
@[simp] theorem hostReturn_outputs (s : State) (v : Byte) : (hostReturn s v).outputs = s.outputs ++ [.ret v] := rfl

/-! ### setRole -/

@[simp] theorem setRole_role (s : State) (r : Role) : (setRole s r).role = r := rfl
@[simp] theorem setRole_outBuf (s : State) (r : Role) : (setRole s r).outBuf = s.outBuf := rfl
@[simp] theorem setRole_inBuf (s : State) (r : Role) : (setRole s r).inBuf = s.inBuf := rfl
@[simp] theorem setRole_readyToSend (s : State) (r : Role) : (setRole s r).readyToSend = s.readyToSend := rfl
@[simp] theorem setRole_stopPending (s : State) (r : Role) : (setRole s r).stopPending = s.stopPending := rfl
@[simp] theorem setRole_err (s : State) (r : Role) : (setRole s r).err = s.err := rfl
@[simp] theorem setRole_txIdle (s : State) (r : Role) : (setRole s r).txIdle = s.txIdle := rfl
@[simp] theorem setRole_txie (s : State) (r : Role) : (setRole s r).txie = s.txie := rfl
@[simp] theorem setRole_tmrRunning (s : State) (r : Role) : (setRole s r).tmrRunning = s.tmrRunning := rfl
@[simp] theorem setRole_tmrRemaining (s : State) (r : Role) : (setRole s r).tmrRemaining = s.tmrRemaining := rfl
@[simp] theorem setRole_stopPolls (s : State) (r : Role) : (setRole s r).stopPolls = s.stopPolls := rfl
@[simp] theorem setRole_critDepth (s : State) (r : Role) : (setRole s r).critDepth = s.critDepth := rfl
@[simp] theorem setRole_fault (s : State) (r : Role) : (setRole s r).fault = s.fault := rfl
@[simp] theorem setRole_cfg (s : State) (r : Role) : (setRole s r).cfg = s.cfg := rfl
@[simp] theorem setRole_inbox (s : State) (r : Role) : (setRole s r).inbox = s.inbox := rfl
@[simp] theorem setRole_outputs (s : State) (r : Role) : (setRole s r).outputs = s.outputs := rfl

/-! ### timerDisarm -/

@[simp] theorem timerDisarm_role (s : State) : (timerDisarm s).role = s.role := rfl
@[simp] theorem timerDisarm_outBuf (s : State) : (timerDisarm s).outBuf = s.outBuf := rfl
@[simp] theorem timerDisarm_inBuf (s : State) : (timerDisarm s).inBuf = s.inBuf := rfl
@[simp] theorem timerDisarm_readyToSend (s : State) : (timerDisarm s).readyToSend = s.readyToSend := rfl
@[simp] theorem timerDisarm_stopPending (s : State) : (timerDisarm s).stopPending = s.stopPending := rfl
@[simp] theorem timerDisarm_err (s : State) : (timerDisarm s).err = s.err := rfl
@[simp] theorem timerDisarm_txIdle (s : State) : (timerDisarm s).txIdle = s.txIdle := rfl
@[simp] theorem timerDisarm_txie (s : State) : (timerDisarm s).txie = s.txie := rfl
@[simp] theorem timerDisarm_tmrRunning (s : State) : (timerDisarm s).tmrRunning = false := rfl
@[simp] theorem timerDisarm_tmrRemaining (s : State) : (timerDisarm s).tmrRemaining = 0 := rfl
@[simp] theorem timerDisarm_stopPolls (s : State) : (timerDisarm s).stopPolls = s.stopPolls := rfl
@[simp] theorem timerDisarm_critDepth (s : State) : (timerDisarm s).critDepth = s.critDepth := rfl
@[simp] theorem timerDisarm_fault (s : State) : (timerDisarm s).fault = s.fault := rfl
@[simp] theorem timerDisarm_cfg (s : State) : (timerDisarm s).cfg = s.cfg := rfl
@[simp] theorem timerDisarm_inbox (s : State) : (timerDisarm s).inbox = s.inbox := rfl
@[simp] theorem timerDisarm_outputs (s : State) : (timerDisarm s).outputs = s.outputs := rfl

/-! ### recordFault -/

@[simp] theorem recordFault_role (s : State) (k : Fault) : (recordFault s k).role = s.role := rfl
@[simp] theorem recordFault_outBuf (s : State) (k : Fault) : (recordFault s k).outBuf = s.outBuf := rfl
@[simp] theorem recordFault_inBuf (s : State) (k : Fault) : (recordFault s k).inBuf = s.inBuf := rfl
@[simp] theorem recordFault_readyToSend (s : State) (k : Fault) : (recordFault s k).readyToSend = s.readyToSend := rfl
@[simp] theorem recordFault_stopPending (s : State) (k : Fault) : (recordFault s k).stopPending = s.stopPending := rfl
@[simp] theorem recordFault_err (s : State) (k : Fault) : (recordFault s k).err = s.err := rfl
@[simp] theorem recordFault_txIdle (s : State) (k : Fault) : (recordFault s k).txIdle = s.txIdle := rfl
@[simp] theorem recordFault_txie (s : State) (k : Fault) : (recordFault s k).txie = s.txie := rfl
@[simp] theorem recordFault_tmrRunning (s : State) (k : Fault) : (recordFault s k).tmrRunning = s.tmrRunning := rfl
@[simp] theorem recordFault_tmrRemaining (s : State) (k : Fault) : (recordFault s k).tmrRemaining = s.tmrRemaining := rfl
@[simp] theorem recordFault_stopPolls (s : State) (k : Fault) : (recordFault s k).stopPolls = s.stopPolls := rfl
@[simp] theorem recordFault_critDepth (s : State) (k : Fault) : (recordFault s k).critDepth = s.critDepth := rfl
@[simp] theorem recordFault_fault (s : State) (k : Fault) : (recordFault s k).fault = some k := rfl
@[simp] theorem recordFault_cfg (s : State) (k : Fault) : (recordFault s k).cfg = s.cfg := rfl
@[simp] theorem recordFault_inbox (s : State) (k : Fault) : (recordFault s k).inbox = s.inbox := rfl
@[simp] theorem recordFault_outputs (s : State) (k : Fault) : (recordFault s k).outputs = s.outputs := rfl

/-! ### setInOvf -/

@[simp] theorem setInOvf_role (s : State) : (setInOvf s).role = s.role := rfl
@[simp] theorem setInOvf_outBuf (s : State) : (setInOvf s).outBuf = s.outBuf := rfl
@[simp] theorem setInOvf_inBuf (s : State) : (setInOvf s).inBuf = s.inBuf := rfl
@[simp] theorem setInOvf_readyToSend (s : State) : (setInOvf s).readyToSend = s.readyToSend := rfl
@[simp] theorem setInOvf_stopPending (s : State) : (setInOvf s).stopPending = s.stopPending := rfl
@[simp] theorem setInOvf_err (s : State) : (setInOvf s).err = s.err ||| 0x01 := rfl
@[simp] theorem setInOvf_txIdle (s : State) : (setInOvf s).txIdle = s.txIdle := rfl
@[simp] theorem setInOvf_txie (s : State) : (setInOvf s).txie = s.txie := rfl
@[simp] theorem setInOvf_tmrRunning (s : State) : (setInOvf s).tmrRunning = s.tmrRunning := rfl
@[simp] theorem setInOvf_tmrRemaining (s : State) : (setInOvf s).tmrRemaining = s.tmrRemaining := rfl
@[simp] theorem setInOvf_stopPolls (s : State) : (setInOvf s).stopPolls = s.stopPolls := rfl
@[simp] theorem setInOvf_critDepth (s : State) : (setInOvf s).critDepth = s.critDepth := rfl
@[simp] theorem setInOvf_fault (s : State) : (setInOvf s).fault = s.fault := rfl
@[simp] theorem setInOvf_cfg (s : State) : (setInOvf s).cfg = s.cfg := rfl
@[simp] theorem setInOvf_inbox (s : State) : (setInOvf s).inbox = s.inbox := rfl
@[simp] theorem setInOvf_outputs (s : State) : (setInOvf s).outputs = s.outputs := rfl

/-! ### setOutOvf -/

@[simp] theorem setOutOvf_role (s : State) : (setOutOvf s).role = s.role := rfl
@[simp] theorem setOutOvf_outBuf (s : State) : (setOutOvf s).outBuf = s.outBuf := rfl
@[simp] theorem setOutOvf_inBuf (s : State) : (setOutOvf s).inBuf = s.inBuf := rfl
@[simp] theorem setOutOvf_readyToSend (s : State) : (setOutOvf s).readyToSend = s.readyToSend := rfl
@[simp] theorem setOutOvf_stopPending (s : State) : (setOutOvf s).stopPending = s.stopPending := rfl
@[simp] theorem setOutOvf_err (s : State) : (setOutOvf s).err = s.err ||| 0x02 := rfl
@[simp] theorem setOutOvf_txIdle (s : State) : (setOutOvf s).txIdle = s.txIdle := rfl
@[simp] theorem setOutOvf_txie (s : State) : (setOutOvf s).txie = s.txie := rfl
@[simp] theorem setOutOvf_tmrRunning (s : State) : (setOutOvf s).tmrRunning = s.tmrRunning := rfl
@[simp] theorem setOutOvf_tmrRemaining (s : State) : (setOutOvf s).tmrRemaining = s.tmrRemaining := rfl
@[simp] theorem setOutOvf_stopPolls (s : State) : (setOutOvf s).stopPolls = s.stopPolls := rfl
@[simp] theorem setOutOvf_critDepth (s : State) : (setOutOvf s).critDepth = s.critDepth := rfl
@[simp] theorem setOutOvf_fault (s : State) : (setOutOvf s).fault = s.fault := rfl
@[simp] theorem setOutOvf_cfg (s : State) : (setOutOvf s).cfg = s.cfg := rfl
@[simp] theorem setOutOvf_inbox (s : State) : (setOutOvf s).inbox = s.inbox := rfl
@[simp] theorem setOutOvf_outputs (s : State) : (setOutOvf s).outputs = s.outputs := rfl

/-! ### raiseReady -/

@[simp] theorem raiseReady_role (s : State) : (raiseReady s).role = s.role := rfl
@[simp] theorem raiseReady_outBuf (s : State) : (raiseReady s).outBuf = s.outBuf := rfl
@[simp] theorem raiseReady_inBuf (s : State) : (raiseReady s).inBuf = s.inBuf := rfl
@[simp] theorem raiseReady_readyToSend (s : State) : (raiseReady s).readyToSend = true := rfl
@[simp] theorem raiseReady_stopPending (s : State) : (raiseReady s).stopPending = s.stopPending := rfl
@[simp] theorem raiseReady_err (s : State) : (raiseReady s).err = s.err := rfl
@[simp] theorem raiseReady_txIdle (s : State) : (raiseReady s).txIdle = s.txIdle := rfl
@[simp] theorem raiseReady_txie (s : State) : (raiseReady s).txie = s.txie := rfl
@[simp] theorem raiseReady_tmrRunning (s : State) : (raiseReady s).tmrRunning = s.tmrRunning := rfl
@[simp] theorem raiseReady_tmrRemaining (s : State) : (raiseReady s).tmrRemaining = s.tmrRemaining := rfl
@[simp] theorem raiseReady_stopPolls (s : State) : (raiseReady s).stopPolls = s.stopPolls := rfl
@[simp] theorem raiseReady_critDepth (s : State) : (raiseReady s).critDepth = s.critDepth := rfl
@[simp] theorem raiseReady_fault (s : State) : (raiseReady s).fault = s.fault := rfl
@[simp] theorem raiseReady_cfg (s : State) : (raiseReady s).cfg = s.cfg := rfl
@[simp] theorem raiseReady_inbox (s : State) : (raiseReady s).inbox = s.inbox := rfl
@[simp] theorem raiseReady_outputs (s : State) : (raiseReady s).outputs = s.outputs := rfl

/-! ### dropReady -/

@[simp] theorem dropReady_role (s : State) : (dropReady s).role = s.role := rfl
@[simp] theorem dropReady_outBuf (s : State) : (dropReady s).outBuf = s.outBuf := rfl
@[simp] theorem dropReady_inBuf (s : State) : (dropReady s).inBuf = s.inBuf := rfl
@[simp] theorem dropReady_readyToSend (s : State) : (dropReady s).readyToSend = false := rfl
@[simp] theorem dropReady_stopPending (s : State) : (dropReady s).stopPending = s.stopPending := rfl
@[simp] theorem dropReady_err (s : State) : (dropReady s).err = s.err := rfl
@[simp] theorem dropReady_txIdle (s : State) : (dropReady s).txIdle = s.txIdle := rfl
@[simp] theorem dropReady_txie (s : State) : (dropReady s).txie = s.txie := rfl
@[simp] theorem dropReady_tmrRunning (s : State) : (dropReady s).tmrRunning = s.tmrRunning := rfl
@[simp] theorem dropReady_tmrRemaining (s : State) : (dropReady s).tmrRemaining = s.tmrRemaining := rfl
@[simp] theorem dropReady_stopPolls (s : State) : (dropReady s).stopPolls = s.stopPolls := rfl
@[simp] theorem dropReady_critDepth (s : State) : (dropReady s).critDepth = s.critDepth := rfl
@[simp] theorem dropReady_fault (s : State) : (dropReady s).fault = s.fault := rfl
@[simp] theorem dropReady_cfg (s : State) : (dropReady s).cfg = s.cfg := rfl
@[simp] theorem dropReady_inbox (s : State) : (dropReady s).inbox = s.inbox := rfl
@[simp] theorem dropReady_outputs (s : State) : (dropReady s).outputs = s.outputs := rfl

/-! ### present -/

@[simp] theorem present_role (s : State) (w : OpWord) : (present s w).role = s.role := rfl
@[simp] theorem present_outBuf (s : State) (w : OpWord) : (present s w).outBuf = s.outBuf := rfl
@[simp] theorem present_inBuf (s : State) (w : OpWord) : (present s w).inBuf = s.inBuf := rfl
@[simp] theorem present_readyToSend (s : State) (w : OpWord) : (present s w).readyToSend = s.readyToSend := rfl
@[simp] theorem present_stopPending (s : State) (w : OpWord) : (present s w).stopPending = s.stopPending := rfl
@[simp] theorem present_err (s : State) (w : OpWord) : (present s w).err = s.err := rfl
@[simp] theorem present_txIdle (s : State) (w : OpWord) : (present s w).txIdle = s.txIdle := rfl
@[simp] theorem present_txie (s : State) (w : OpWord) : (present s w).txie = s.txie := rfl
@[simp] theorem present_tmrRunning (s : State) (w : OpWord) : (present s w).tmrRunning = s.tmrRunning := rfl
@[simp] theorem present_tmrRemaining (s : State) (w : OpWord) : (present s w).tmrRemaining = s.tmrRemaining := rfl
@[simp] theorem present_stopPolls (s : State) (w : OpWord) : (present s w).stopPolls = s.stopPolls := rfl
@[simp] theorem present_critDepth (s : State) (w : OpWord) : (present s w).critDepth = s.critDepth := rfl
@[simp] theorem present_fault (s : State) (w : OpWord) : (present s w).fault = s.fault := rfl
@[simp] theorem present_cfg (s : State) (w : OpWord) : (present s w).cfg = s.cfg := rfl
@[simp] theorem present_inbox (s : State) (w : OpWord) : (present s w).inbox = w :: s.inbox := rfl
@[simp] theorem present_outputs (s : State) (w : OpWord) : (present s w).outputs = s.outputs := rfl

/-! ### The timer and the composite updates -/

/-- A guarded arm, field by field (R111). -/
theorem timerArm_eq (s : State) (n : Nat) :
    timerArm s n = { s with tmrRunning := true, tmrRemaining := if s.tmrRunning then s.tmrRemaining else n } := by
  unfold timerArm
  split
  · rename_i h
    cases s
    simp_all
  · rfl

/-- An arm while a countdown runs has no effect (R111). -/
theorem timerArm_of_running {s : State} (h : s.tmrRunning = true) (n : Nat) : timerArm s n = s := by
  simp [timerArm, h]

/-- What `Abort` leaves (R99). -/
theorem abort_eq (s : State) (t : Nat) :
    abort s t =
      { s with
        role := .stopped, outputs := s.outputs ++ [.bus .sendStop none], tmrRunning := true,
        tmrRemaining := if s.tmrRunning then s.tmrRemaining else t } := by
  simp [abort, timerArm_eq, setRole, emitBus]

/-- What `EndOfData` leaves (R95). -/
theorem endOfData_eq (s : State) :
    endOfData s =
      { s with
        stopPending := true, stopPolls := 0, outputs := s.outputs ++ [.bus .sendStop none], tmrRunning := true,
        tmrRemaining := if s.tmrRunning then s.tmrRemaining else s.cfg.tStopPoll } := by
  simp [endOfData, timerArm_eq, emitBus]

/-! ### timerArm -/

@[simp] theorem timerArm_role (s : State) (n : Nat) : (timerArm s n).role = s.role := by
  rw [timerArm_eq]
@[simp] theorem timerArm_outBuf (s : State) (n : Nat) : (timerArm s n).outBuf = s.outBuf := by
  rw [timerArm_eq]
@[simp] theorem timerArm_inBuf (s : State) (n : Nat) : (timerArm s n).inBuf = s.inBuf := by
  rw [timerArm_eq]
@[simp] theorem timerArm_readyToSend (s : State) (n : Nat) : (timerArm s n).readyToSend = s.readyToSend := by
  rw [timerArm_eq]
@[simp] theorem timerArm_stopPending (s : State) (n : Nat) : (timerArm s n).stopPending = s.stopPending := by
  rw [timerArm_eq]
@[simp] theorem timerArm_err (s : State) (n : Nat) : (timerArm s n).err = s.err := by
  rw [timerArm_eq]
@[simp] theorem timerArm_txIdle (s : State) (n : Nat) : (timerArm s n).txIdle = s.txIdle := by
  rw [timerArm_eq]
@[simp] theorem timerArm_txie (s : State) (n : Nat) : (timerArm s n).txie = s.txie := by
  rw [timerArm_eq]
@[simp] theorem timerArm_tmrRunning (s : State) (n : Nat) : (timerArm s n).tmrRunning = true := by
  rw [timerArm_eq]
@[simp] theorem timerArm_tmrRemaining (s : State) (n : Nat) : (timerArm s n).tmrRemaining = if s.tmrRunning then s.tmrRemaining else n := by
  rw [timerArm_eq]
@[simp] theorem timerArm_stopPolls (s : State) (n : Nat) : (timerArm s n).stopPolls = s.stopPolls := by
  rw [timerArm_eq]
@[simp] theorem timerArm_critDepth (s : State) (n : Nat) : (timerArm s n).critDepth = s.critDepth := by
  rw [timerArm_eq]
@[simp] theorem timerArm_fault (s : State) (n : Nat) : (timerArm s n).fault = s.fault := by
  rw [timerArm_eq]
@[simp] theorem timerArm_cfg (s : State) (n : Nat) : (timerArm s n).cfg = s.cfg := by
  rw [timerArm_eq]
@[simp] theorem timerArm_inbox (s : State) (n : Nat) : (timerArm s n).inbox = s.inbox := by
  rw [timerArm_eq]
@[simp] theorem timerArm_outputs (s : State) (n : Nat) : (timerArm s n).outputs = s.outputs := by
  rw [timerArm_eq]

/-! ### abort -/

@[simp] theorem abort_role (s : State) (t : Nat) : (abort s t).role = .stopped := by
  rw [abort_eq]
@[simp] theorem abort_outBuf (s : State) (t : Nat) : (abort s t).outBuf = s.outBuf := by
  rw [abort_eq]
@[simp] theorem abort_inBuf (s : State) (t : Nat) : (abort s t).inBuf = s.inBuf := by
  rw [abort_eq]
@[simp] theorem abort_readyToSend (s : State) (t : Nat) : (abort s t).readyToSend = s.readyToSend := by
  rw [abort_eq]
@[simp] theorem abort_stopPending (s : State) (t : Nat) : (abort s t).stopPending = s.stopPending := by
  rw [abort_eq]
@[simp] theorem abort_err (s : State) (t : Nat) : (abort s t).err = s.err := by
  rw [abort_eq]
@[simp] theorem abort_txIdle (s : State) (t : Nat) : (abort s t).txIdle = s.txIdle := by
  rw [abort_eq]
@[simp] theorem abort_txie (s : State) (t : Nat) : (abort s t).txie = s.txie := by
  rw [abort_eq]
@[simp] theorem abort_tmrRunning (s : State) (t : Nat) : (abort s t).tmrRunning = true := by
  rw [abort_eq]
@[simp] theorem abort_tmrRemaining (s : State) (t : Nat) : (abort s t).tmrRemaining = if s.tmrRunning then s.tmrRemaining else t := by
  rw [abort_eq]
@[simp] theorem abort_stopPolls (s : State) (t : Nat) : (abort s t).stopPolls = s.stopPolls := by
  rw [abort_eq]
@[simp] theorem abort_critDepth (s : State) (t : Nat) : (abort s t).critDepth = s.critDepth := by
  rw [abort_eq]
@[simp] theorem abort_fault (s : State) (t : Nat) : (abort s t).fault = s.fault := by
  rw [abort_eq]
@[simp] theorem abort_cfg (s : State) (t : Nat) : (abort s t).cfg = s.cfg := by
  rw [abort_eq]
@[simp] theorem abort_inbox (s : State) (t : Nat) : (abort s t).inbox = s.inbox := by
  rw [abort_eq]
@[simp] theorem abort_outputs (s : State) (t : Nat) : (abort s t).outputs = s.outputs ++ [.bus .sendStop none] := by
  rw [abort_eq]

/-! ### endOfData -/

@[simp] theorem endOfData_role (s : State) : (endOfData s).role = s.role := by
  rw [endOfData_eq]
@[simp] theorem endOfData_outBuf (s : State) : (endOfData s).outBuf = s.outBuf := by
  rw [endOfData_eq]
@[simp] theorem endOfData_inBuf (s : State) : (endOfData s).inBuf = s.inBuf := by
  rw [endOfData_eq]
@[simp] theorem endOfData_readyToSend (s : State) : (endOfData s).readyToSend = s.readyToSend := by
  rw [endOfData_eq]
@[simp] theorem endOfData_stopPending (s : State) : (endOfData s).stopPending = true := by
  rw [endOfData_eq]
@[simp] theorem endOfData_err (s : State) : (endOfData s).err = s.err := by
  rw [endOfData_eq]
@[simp] theorem endOfData_txIdle (s : State) : (endOfData s).txIdle = s.txIdle := by
  rw [endOfData_eq]
@[simp] theorem endOfData_txie (s : State) : (endOfData s).txie = s.txie := by
  rw [endOfData_eq]
@[simp] theorem endOfData_tmrRunning (s : State) : (endOfData s).tmrRunning = true := by
  rw [endOfData_eq]
@[simp] theorem endOfData_tmrRemaining (s : State) : (endOfData s).tmrRemaining = if s.tmrRunning then s.tmrRemaining else s.cfg.tStopPoll := by
  rw [endOfData_eq]
@[simp] theorem endOfData_stopPolls (s : State) : (endOfData s).stopPolls = 0 := by
  rw [endOfData_eq]
@[simp] theorem endOfData_critDepth (s : State) : (endOfData s).critDepth = s.critDepth := by
  rw [endOfData_eq]
@[simp] theorem endOfData_fault (s : State) : (endOfData s).fault = s.fault := by
  rw [endOfData_eq]
@[simp] theorem endOfData_cfg (s : State) : (endOfData s).cfg = s.cfg := by
  rw [endOfData_eq]
@[simp] theorem endOfData_inbox (s : State) : (endOfData s).inbox = s.inbox := by
  rw [endOfData_eq]
@[simp] theorem endOfData_outputs (s : State) : (endOfData s).outputs = s.outputs ++ [.bus .sendStop none] := by
  rw [endOfData_eq]

end Sys2Proof.Laws
end

