-- ==== Sys2Proof/Laws/Step.lean ====
section
/-! SUPPORT. What a step can do: the one inversion of `performStep`, and the step of the machine. -/

namespace Sys2Proof.Laws

open Sys2Proof.Machine

/-- Everything an atomic step can do when it answers a next state (R12, R75, R147). -/
theorem performStep_next {s t : State} {en : Bool} {body : Except Fault State}
    (h : performStep s en body = .next t) :
    s.fault = none ∧
    ((en = false ∧ t = recordFault s .eventNotEnabled) ∨
     (en = true ∧ body = .ok t) ∨
     (en = true ∧ ∃ k, body = .error k ∧ t = recordFault s k)) := by
  unfold performStep at h
  cases hf : s.fault with
  | some k => simp [hf] at h
  | none =>
    cases en with
    | false =>
      simp only [hf, Bool.false_eq_true, if_false, Host.Outcome.next.injEq] at h
      exact ⟨rfl, .inl ⟨rfl, h.symm⟩⟩
    | true =>
      cases body with
      | ok u =>
        simp only [hf, if_true, Host.Outcome.next.injEq] at h
        exact ⟨rfl, .inr (.inl ⟨rfl, by rw [h]⟩)⟩
      | error k =>
        simp only [hf, if_true, Host.Outcome.next.injEq] at h
        exact ⟨rfl, .inr (.inr ⟨rfl, k, rfl, h.symm⟩)⟩

/-- An enabled step whose body raises no fault answers the body's state. -/
theorem performStep_ok {s t : State} {en : Bool} (hf : s.fault = none) (he : en = true) :
    performStep s en (.ok t) = .next t := by
  simp [performStep, hf, he]

/-- An enabled step whose body raises a fault records it and keeps nothing else (R12). -/
theorem performStep_error {s : State} {en : Bool} {k : Fault} (hf : s.fault = none) (he : en = true) :
    performStep s en (.error k) = .next (recordFault s k) := by
  simp [performStep, hf, he]

/-- A step that is not enabled records EventNotEnabled (R75). -/
theorem performStep_disabled {s : State} {en : Bool} (body : Except Fault State) (hf : s.fault = none)
    (he : en = false) : performStep s en body = .next (recordFault s .eventNotEnabled) := by
  simp [performStep, hf, he]

/-- A faulted state takes no step (R147). -/
theorem performStep_faulted {s : State} {k : Fault} (en : Bool) (body : Except Fault State) (hf : s.fault = some k) :
    performStep s en body = .fault k := by
  simp [performStep, hf]

/-- Everything a step of the machine can be: idle, an operation's meaning, or a refused word. -/
theorem step_cases (s : State) :
    (s.inbox = [] ∧ step s = idleStep s) ∨
    (∃ w rest, s.inbox = w :: rest ∧
      ((∃ i, decode s.cfg.busCodes w = .ok i ∧ step s = exec i { s with inbox := rest }) ∨
       (∃ e, decode s.cfg.busCodes w = .error e ∧ step s = refuseWord { s with inbox := rest }))) := by
  unfold step fetch
  cases h : s.inbox with
  | nil => exact .inl ⟨rfl, rfl⟩
  | cons w rest =>
    refine .inr ⟨w, rest, rfl, ?_⟩
    simp only
    cases hd : decode s.cfg.busCodes w with
    | ok i => exact .inl ⟨i, rfl, rfl⟩
    | error e => exact .inr ⟨e, rfl, rfl⟩

@[simp] theorem withFetchWord_inbox (s : State) (nbits w : Nat) :
    (s.withFetchWord nbits w).inbox = tableWord nbits w :: s.inbox := rfl

/-- Interrupt steps are enabled exactly outside critical regions (R28). -/
theorem irqOpen_iff (s : State) : irqOpen s = true ↔ s.critDepth = 0 := by simp [irqOpen]

theorem stxEnabled_iff (s : State) : stxEnabled s = true ↔ s.critDepth = 0 ∧ s.txie = true := by
  simp [stxEnabled, irqOpen]

theorem tickEnabled_iff (s : State) :
    tickEnabled s = true ↔ s.critDepth = 0 ∧ s.tmrRunning = true ∧ 0 < s.tmrRemaining := by
  simp [tickEnabled, irqOpen, and_assoc]

theorem expireEnabled_iff (s : State) :
    expireEnabled s = true ↔ s.critDepth = 0 ∧ s.tmrRunning = true ∧ s.tmrRemaining = 0 := by
  simp [expireEnabled, irqOpen, and_assoc]

end Sys2Proof.Laws
end

