-- ==== Sys2Proof/Laws/Exec.lean ====
section
/-! SUPPORT. Every operation as one atomic step of a body, and everything each body can answer. -/

namespace Sys2Proof.Laws

open Sys2Proof.Machine Sys2Proof.Safety

/-- When an operation's step is enabled (R75). -/
def opEnabled : Instr → State → Bool
  | .startSent, s => irqOpen s
  | .addrAck, s => irqOpen s
  | .addrNack, s => irqOpen s
  | .dataAck, s => irqOpen s
  | .dataNack, s => irqOpen s
  | .arbLost, s => irqOpen s
  | .slaMatch, s => irqOpen s
  | .slaMatchArb, s => irqOpen s
  | .slvDataAck _, s => irqOpen s
  | .slvDataNack _, s => irqOpen s
  | .stopRx, s => irqOpen s
  | .busDefault _, s => irqOpen s
  | .serRx _, s => irqOpen s
  | .serTxEmpty, s => stxEnabled s
  | .timerTick, s => tickEnabled s
  | .timerExpire _, s => expireEnabled s
  | .readRole, _ => true
  | .readReady, _ => true
  | .clearReady, _ => true
  | .readErr, _ => true
  | .readClearErr, _ => true
  | .beginSend, _ => true
  | .critEnter, _ => true
  | .critExit, _ => true
  | .reset, _ => true

/-- The body of an operation's step. -/
def opBody : Instr → State → Except Fault State
  | .startSent, s => .ok (emitBus s .contAck (some (slaW s.cfg)))
  | .addrAck, s => transmitTail s
  | .addrNack, s => .ok (abort s s.cfg.tBackoff)
  | .dataAck, s => dataAckBody s
  | .dataNack, s => .ok (abort s s.cfg.tBackoff)
  | .arbLost, s => .ok (abort s s.cfg.tBackoff)
  | .slaMatch, s => .ok (slaMatchState s)
  | .slaMatchArb, s => .ok (slaMatchArbState s)
  | .slvDataAck d, s => slvDataAckBody d s
  | .slvDataNack d, s => .ok (slvDataNackState d s)
  | .stopRx, s => .ok (emitBus (setRole s .stopped) .contAck none)
  | .busDefault _, s => .ok (abort s s.cfg.tShort)
  | .serRx b, s => serRxBody b s
  | .serTxEmpty, s => serTxEmptyBody s
  | .timerTick, s => .ok { s with tmrRemaining := s.tmrRemaining - 1 }
  | .timerExpire busy, s => timerExpireBody busy s
  | .readRole, s => .ok (hostReturn s (roleByte s.role))
  | .readReady, s => .ok (hostReturn s (flagByte s.readyToSend))
  | .clearReady, s => .ok (dropReady s)
  | .readErr, s => .ok (hostReturn s s.err)
  | .readClearErr, s => .ok (readClearErrState s)
  | .beginSend, s => beginSendBody s
  | .critEnter, s => if s.critDepth = 0xFF then .error .critOverflow else .ok { s with critDepth := s.critDepth + 1 }
  | .critExit, s => if s.critDepth = 0x00 then .error .critUnderflow else .ok { s with critDepth := s.critDepth - 1 }
  | .reset, s => .ok (resetState s)

/-- Every operation is one atomic step (R50). -/
theorem exec_eq_performStep (i : Instr) (s : State) : exec i s = performStep s (opEnabled i s) (opBody i s) := by
  cases i <;> rfl

/-- Everything an operation can do when it answers a next state. -/
theorem exec_next {i : Instr} {s t : State} (h : exec i s = .next t) :
    s.fault = none ∧
    ((opEnabled i s = false ∧ t = recordFault s .eventNotEnabled) ∨
     (opEnabled i s = true ∧ opBody i s = .ok t) ∨
     (opEnabled i s = true ∧ ∃ k, opBody i s = .error k ∧ t = recordFault s k)) := by
  rw [exec_eq_performStep] at h
  exact performStep_next h

/-- Everything transmitting the tail byte can answer (R94, R95). -/
theorem transmitTail_cases {s : State} {r : Except Fault State} (h : transmitTail s = r) :
    (s.outBuf.count = 0 ∧ r = .ok (endOfData s)) ∨
    (0 < s.outBuf.count ∧ ∃ v, storeRead s.outBuf.data s.outBuf.tail = some v ∧
      r = .ok (emitBus s .contAck (some v))) ∨
    (0 < s.outBuf.count ∧ ((s.outBuf.tail < s.cfg.cOut ∧ storeRead s.outBuf.data s.outBuf.tail = none ∧
      r = .error .unwrittenSlot) ∨ (¬ s.outBuf.tail < s.cfg.cOut ∧ r = .error .noSuchSlot))) := by
  subst h
  unfold transmitTail
  rcases ringPeek_cases s.cfg.cOut s.outBuf with ⟨hc, hp⟩ | ⟨hc, v, _, hv, hp⟩ | ⟨hc, ⟨ht, hv, hp⟩ | ⟨ht, hp⟩⟩
  · exact .inl ⟨hc, by rw [hp]⟩
  · exact .inr (.inl ⟨hc, v, hv, by rw [hp]⟩)
  · exact .inr (.inr ⟨hc, .inl ⟨ht, hv, by rw [hp]⟩⟩)
  · exact .inr (.inr ⟨hc, .inr ⟨ht, by rw [hp]⟩⟩)

/-- Everything DATA_ACK can answer, up to the transmission of the new tail byte (R95). -/
theorem dataAckBody_cases (s : State) :
    (s.outBuf.count = 0 ∧ dataAckBody s = .ok (endOfData s)) ∨
    (0 < s.outBuf.count ∧ ∃ v, storeRead s.outBuf.data s.outBuf.tail = some v ∧
      dataAckBody s = transmitTail { s with outBuf := afterPop s.cfg.cOut s.outBuf }) ∨
    (0 < s.outBuf.count ∧ ((s.outBuf.tail < s.cfg.cOut ∧ storeRead s.outBuf.data s.outBuf.tail = none ∧
      dataAckBody s = .error .unwrittenSlot) ∨
      (¬ s.outBuf.tail < s.cfg.cOut ∧ dataAckBody s = .error .noSuchSlot))) := by
  unfold dataAckBody
  rcases ringPop_cases s.cfg.cOut s.outBuf with ⟨hc, hp⟩ | ⟨hc, v, _, hv, hp⟩ | ⟨hc, ⟨ht, hv, hp⟩ | ⟨ht, hp⟩⟩
  · refine .inl ⟨hc, ?_⟩
    rw [hp]
    rcases transmitTail_cases (s := s) rfl with ⟨_, h⟩ | ⟨h, _⟩ | ⟨h, _⟩
    · exact h
    · omega
    · omega
  · exact .inr (.inl ⟨hc, v, hv, by rw [hp]⟩)
  · exact .inr (.inr ⟨hc, .inl ⟨ht, hv, by rw [hp]⟩⟩)
  · exact .inr (.inr ⟨hc, .inr ⟨ht, by rw [hp]⟩⟩)

/-- The state SER_RX leaves, given its buffer and error bits after the push (R89). -/
def rxState (s : State) (q : RingBuf) (e : Byte) : State :=
  { s with
    outBuf := q, err := e,
    readyToSend := if s.cfg.threshold ≤ q.count then true else s.readyToSend,
    tmrRunning := if rxGate s then (if s.cfg.threshold ≤ q.count then false else true) else s.tmrRunning,
    tmrRemaining := if rxGate s then (if s.cfg.threshold ≤ q.count then 0 else s.cfg.tIdle) else s.tmrRemaining }

theorem rxThreshold_eq (s : State) (q : RingBuf) (e : Byte) :
    serRxThreshold { (if rxGate s then timerDisarm s else s) with outBuf := q, err := e } = rxState s q e := by
  have hg : ∀ u : State, u.stopPending = s.stopPending → u.cfg = s.cfg → rxGate u = rxGate s := by
    intro u h1 h2
    simp [rxGate, h1, h2]
  unfold serRxThreshold rxState
  cases h : rxGate s <;> by_cases ht : s.cfg.threshold ≤ q.count <;>
    simp [ht, hg, h, raiseReady, timerDisarm, timerArm]

/-- Everything SER_RX can answer (R89). -/
theorem serRxBody_cases (b : Byte) (s : State) :
    (s.outBuf.count = s.cfg.cOut ∧ serRxBody b s = .ok (rxState s s.outBuf (s.err ||| 0x02))) ∨
    (s.outBuf.count ≠ s.cfg.cOut ∧ s.outBuf.head < s.cfg.cOut ∧
      serRxBody b s = .ok (rxState s (pushed s.cfg.cOut s.outBuf b) s.err)) ∨
    (s.outBuf.count ≠ s.cfg.cOut ∧ ¬ s.outBuf.head < s.cfg.cOut ∧ serRxBody b s = .error .noSuchSlot) := by
  have hs : (if rxGate s then timerDisarm s else s).outBuf = s.outBuf ∧
      (if rxGate s then timerDisarm s else s).cfg = s.cfg ∧ (if rxGate s then timerDisarm s else s).err = s.err := by
    split <;> simp
  obtain ⟨h1, h2, h3⟩ := hs
  unfold serRxBody
  simp only [h1, h2]
  rcases ringPush_cases s.cfg.cOut s.outBuf b with ⟨hc, hp⟩ | ⟨hc, hh, hp⟩ | ⟨hc, hh, hp⟩
  · refine .inl ⟨hc, ?_⟩
    rw [hp, ← rxThreshold_eq]
    simp only [setOutOvf, outOvfBit, h3]
    congr 2
    split <;> rfl
  · refine .inr (.inl ⟨hc, hh, ?_⟩)
    rw [hp, ← rxThreshold_eq]
    simp only [pushed]
    congr 2
    split <;> rfl
  · exact .inr (.inr ⟨hc, hh, by rw [hp]⟩)

/-- Everything SER_TX_EMPTY can answer (R91). -/
theorem serTxEmptyBody_cases (s : State) :
    (s.inBuf.count = 0 ∧ serTxEmptyBody s = .ok { s with txie := false, txIdle := true }) ∨
    (0 < s.inBuf.count ∧ ∃ v, storeRead s.inBuf.data s.inBuf.tail = some v ∧
      serTxEmptyBody s =
        .ok { s with inBuf := afterPop s.cfg.cIn s.inBuf, outputs := s.outputs ++ [.ser v] }) ∨
    (0 < s.inBuf.count ∧ ((s.inBuf.tail < s.cfg.cIn ∧ storeRead s.inBuf.data s.inBuf.tail = none ∧
      serTxEmptyBody s = .error .unwrittenSlot) ∨
      (¬ s.inBuf.tail < s.cfg.cIn ∧ serTxEmptyBody s = .error .noSuchSlot))) := by
  unfold serTxEmptyBody
  rcases ringPop_cases s.cfg.cIn s.inBuf with ⟨hc, hp⟩ | ⟨hc, v, _, hv, hp⟩ | ⟨hc, ⟨ht, hv, hp⟩ | ⟨ht, hp⟩⟩
  · exact .inl ⟨hc, by rw [hp]⟩
  · exact .inr (.inl ⟨hc, v, hv, by rw [hp]; rfl⟩)
  · exact .inr (.inr ⟨hc, .inl ⟨ht, hv, by rw [hp]⟩⟩)
  · exact .inr (.inr ⟨hc, .inr ⟨ht, by rw [hp]⟩⟩)

theorem fastPath_iff (s : State) : fastPath s = true ↔ s.inBuf.count = 0 ∧ s.txIdle = true := by simp [fastPath]

/-- Everything SLV_DATA_ACK can answer (R106). -/
theorem slvDataAckBody_cases (d : Byte) (s : State) :
    ((s.inBuf.count = 0 ∧ s.txIdle = true) ∧ slvDataAckBody d s = .ok
      { s with txIdle := false, txie := true, outputs := s.outputs ++ [.ser d, .bus .contAck none] }) ∨
    (¬ (s.inBuf.count = 0 ∧ s.txIdle = true) ∧ s.inBuf.count = s.cfg.cIn ∧ slvDataAckBody d s = .ok
      { s with err := s.err ||| 0x01, role := .blockedReceiving, outputs := s.outputs ++ [.bus .withholdAck none] }) ∨
    (¬ (s.inBuf.count = 0 ∧ s.txIdle = true) ∧ s.inBuf.count ≠ s.cfg.cIn ∧ s.inBuf.head < s.cfg.cIn ∧
      slvDataAckBody d s = .ok
        (if s.inBuf.count + 1 = s.cfg.cIn then
          { s with
            inBuf := pushed s.cfg.cIn s.inBuf d, role := .blockedReceiving,
            outputs := s.outputs ++ [.bus .withholdAck none] }
        else { s with inBuf := pushed s.cfg.cIn s.inBuf d, outputs := s.outputs ++ [.bus .contAck none] })) ∨
    (s.inBuf.count ≠ s.cfg.cIn ∧ ¬ s.inBuf.head < s.cfg.cIn ∧ slvDataAckBody d s = .error .noSuchSlot) := by
  unfold slvDataAckBody
  by_cases hf : s.inBuf.count = 0 ∧ s.txIdle = true
  · exact .inl ⟨hf, by simp [(fastPath_iff s).2 hf, emitBus, emitSer]⟩
  · have hf' : fastPath s = false := by
      cases h : fastPath s
      · rfl
      · exact absurd ((fastPath_iff s).1 h) hf
    rcases ringPush_cases s.cfg.cIn s.inBuf d with ⟨hc, hp⟩ | ⟨hc, hh, hp⟩ | ⟨hc, hh, hp⟩
    · exact .inr (.inl ⟨hf, hc, by rw [hf', hp]; rfl⟩)
    · refine .inr (.inr (.inl ⟨hf, hc, hh, ?_⟩))
      rw [hf', hp]
      simp only [Bool.false_eq_true, if_false]
      split <;> rfl
    · exact .inr (.inr (.inr ⟨hc, hh, by rw [hf', hp]; rfl⟩))

theorem pollsExhausted_iff (c : Config) (n : Byte) :
    pollsExhausted c n = true ↔ ∃ m, c.maxStopPolls = some m ∧ m ≤ n.toNat := by
  unfold pollsExhausted
  cases c.maxStopPolls <;> simp

/-- Everything TIMER_EXPIRE can answer (R116). -/
theorem timerExpireBody_cases (busy : Bool) (s : State) :
    (s.stopPending = false ∧ timerExpireBody busy s = .ok { s with tmrRunning := false, readyToSend := true }) ∨
    (s.stopPending = true ∧ busy = false ∧ timerExpireBody busy s =
      .ok { s with tmrRunning := false, stopPending := false, stopPolls := 0, role := .stopped }) ∨
    (s.stopPending = true ∧ busy = true ∧ pollsExhausted s.cfg s.stopPolls = true ∧
      timerExpireBody busy s = .error .stopPollExhausted) ∨
    (s.stopPending = true ∧ busy = true ∧ pollsExhausted s.cfg s.stopPolls = false ∧ timerExpireBody busy s =
      .ok { s with tmrRunning := true, tmrRemaining := s.cfg.tStopPoll, stopPolls := bumpPolls s.stopPolls }) := by
  unfold timerExpireBody
  cases h : s.stopPending <;> cases busy <;> cases he : pollsExhausted s.cfg s.stopPolls <;>
    simp [raiseReady, timerArm, he]

/-- `min(stop_polls + 1, 255)` as a number (R27). -/
theorem bumpPolls_eq (n : Byte) : bumpPolls n = BitVec.ofNat 8 (min (n.toNat + 1) 255) := by
  revert n
  decide

end Sys2Proof.Laws
end

