-- ==== Sys2Proof/Laws/PerInstr.lean ====
section
/-! SUPPORT. A statement per operation: the word of every operation carries its agent's PORT (30_encoding.md R62). -/

/-- The PORT field of an operation's word is that of the agent that delivers it, under every code map. -/
def Sys2Proof.Laws.PortOfWord.Statement (i : Sys2Proof.Instr) : Prop :=
  ∀ m : Sys2Proof.BusCodes, Sys2Proof.OpWord.port (Sys2Proof.encode m i) = Sys2Proof.Agent.portCode i.agent

namespace Sys2Proof.Laws

theorem PortOfWord.startSent : PortOfWord.Statement .startSent :=
  fun _ => port_opWord _ _ _

theorem PortOfWord.addrAck : PortOfWord.Statement .addrAck :=
  fun _ => port_opWord _ _ _

theorem PortOfWord.addrNack : PortOfWord.Statement .addrNack :=
  fun _ => port_opWord _ _ _

theorem PortOfWord.dataAck : PortOfWord.Statement .dataAck :=
  fun _ => port_opWord _ _ _

theorem PortOfWord.dataNack : PortOfWord.Statement .dataNack :=
  fun _ => port_opWord _ _ _

theorem PortOfWord.arbLost : PortOfWord.Statement .arbLost :=
  fun _ => port_opWord _ _ _

theorem PortOfWord.slaMatch : PortOfWord.Statement .slaMatch :=
  fun _ => port_opWord _ _ _

theorem PortOfWord.slaMatchArb : PortOfWord.Statement .slaMatchArb :=
  fun _ => port_opWord _ _ _

theorem PortOfWord.slvDataAck (d : Byte) : PortOfWord.Statement (.slvDataAck d) :=
  fun _ => port_opWord _ _ _

theorem PortOfWord.slvDataNack (d : Byte) : PortOfWord.Statement (.slvDataNack d) :=
  fun _ => port_opWord _ _ _

theorem PortOfWord.stopRx : PortOfWord.Statement .stopRx :=
  fun _ => port_opWord _ _ _

theorem PortOfWord.busDefault (code : Byte) : PortOfWord.Statement (.busDefault code) :=
  fun _ => port_opWord _ _ _

theorem PortOfWord.serRx (b : Byte) : PortOfWord.Statement (.serRx b) :=
  fun _ => port_opWord _ _ _

theorem PortOfWord.serTxEmpty : PortOfWord.Statement .serTxEmpty :=
  fun _ => port_opWord _ _ _

theorem PortOfWord.timerTick : PortOfWord.Statement .timerTick :=
  fun _ => port_opWord _ _ _

theorem PortOfWord.timerExpire (busy : Bool) : PortOfWord.Statement (.timerExpire busy) :=
  fun _ => port_opWord _ _ _

theorem PortOfWord.readRole : PortOfWord.Statement .readRole :=
  fun _ => port_opWord _ _ _

theorem PortOfWord.readReady : PortOfWord.Statement .readReady :=
  fun _ => port_opWord _ _ _

theorem PortOfWord.clearReady : PortOfWord.Statement .clearReady :=
  fun _ => port_opWord _ _ _

theorem PortOfWord.readErr : PortOfWord.Statement .readErr :=
  fun _ => port_opWord _ _ _

theorem PortOfWord.readClearErr : PortOfWord.Statement .readClearErr :=
  fun _ => port_opWord _ _ _

theorem PortOfWord.beginSend : PortOfWord.Statement .beginSend :=
  fun _ => port_opWord _ _ _

theorem PortOfWord.critEnter : PortOfWord.Statement .critEnter :=
  fun _ => port_opWord _ _ _

theorem PortOfWord.critExit : PortOfWord.Statement .critExit :=
  fun _ => port_opWord _ _ _

theorem PortOfWord.reset : PortOfWord.Statement .reset :=
  fun _ => port_opWord _ _ _

end Sys2Proof.Laws
end

