-- ==== Sys2Proof/Tests/Slice0.lean ====
section
/-! SUPPORT. Tests of the model. Expected results come from the tables of 30_encoding.md and the vectors of
95_test_vectors.md, whose ids stand in the comments; the witnesses show that the hypotheses of the statements can be met. -/

namespace Sys2Proof.Tests

open Sys2Proof.Machine Sys2Proof.Safety

/-! ## Well-formedness -/

/-- An ill-formed term, refused: BUS_DEFAULT at a code that belongs to DATA_ACK. -/
theorem test_wellFormed_refuses_named_code : wellFormed defaultBusCodes (.busDefault 0x28) = false := by decide

/-- All eleven named codes are refused as BUS_DEFAULT, and a neighbour of each is not. -/
theorem test_wellFormed_codes :
    (defaultBusCodes.list.all fun c => !wellFormed defaultBusCodes (.busDefault c)) = true ∧
    (defaultBusCodes.list.all fun c => wellFormed defaultBusCodes (.busDefault (c + 1))) = true := by decide

/-- A code map with a code used twice is not legal. -/
theorem test_codes_distinct :
    defaultBusCodes.Distinct ∧ ¬ BusCodes.Distinct { defaultBusCodes with arbLost := 0x08 } := by decide

/-- The test configuration is legal; capacities, thresholds, tick counts and bounds outside R8 are not. -/
theorem test_config_legal :
    nominalConfig.Legal ∧
    ([{ nominalConfig with cOut := 3 }, { nominalConfig with cIn := 256 }, { nominalConfig with threshold := 0 },
      { nominalConfig with tIdle := 256 }, { nominalConfig with maxStopPolls := some 0 }].all
        fun c => !decide (Config.Legal c)) = true := by
  decide

/-! ## Decoding, one word per operation, its bits written out from 30_encoding.md -/

/-- The operation a word decodes to under the default code map. -/
def dec (w : OpWord) : Option Instr := (decode defaultBusCodes w).toOption

theorem test_decode_startSent : dec 0b00000001_00001000_01110111 = some .startSent := by decide

theorem test_decode_addrAck : dec 0b00000001_00011000_00000000 = some .addrAck := by decide

theorem test_decode_addrNack : dec 0b00000001_00100000_00000000 = some .addrNack := by decide

theorem test_decode_dataAck : dec 0b00000001_00101000_00001111 = some .dataAck := by decide

theorem test_decode_dataNack : dec 0b00000001_00110000_00000000 = some .dataNack := by decide

theorem test_decode_arbLost : dec 0b00000001_00111000_00000000 = some .arbLost := by decide

theorem test_decode_slaMatch : dec 0b00000001_01100000_00000000 = some .slaMatch := by decide

theorem test_decode_slaMatchArb : dec 0b00000001_01101000_00000000 = some .slaMatchArb := by decide

theorem test_decode_slvDataAck : dec 0b00000001_10000000_00110001 = some (.slvDataAck 0x31) := by decide

theorem test_decode_slvDataNack : dec 0b00000001_10001000_00110100 = some (.slvDataNack 0x34) := by decide

theorem test_decode_stopRx : dec 0b00000001_10100000_01010101 = some .stopRx := by decide

theorem test_decode_busDefault : dec 0b00000001_11111000_00000000 = some (.busDefault 0xF8) := by decide

theorem test_decode_serRx : dec 0b00000010_00000000_01000001 = some (.serRx 0x41) := by decide

theorem test_decode_serTxEmpty : dec 0b00000011_00000000_00000000 = some .serTxEmpty := by decide

theorem test_decode_timerTick : dec 0b00000100_00000000_00000000 = some .timerTick := by decide

theorem test_decode_timerExpire : dec 0b00000100_00000001_00000001 = some (.timerExpire true) := by decide

theorem test_decode_readRole : dec 0b00000101_00000000_00000000 = some .readRole := by decide

theorem test_decode_readReady : dec 0b00000101_00000001_00000000 = some .readReady := by decide

theorem test_decode_clearReady : dec 0b00000101_00000010_00000000 = some .clearReady := by decide

theorem test_decode_readErr : dec 0b00000101_00000011_00000000 = some .readErr := by decide

theorem test_decode_readClearErr : dec 0b00000101_00000100_00000000 = some .readClearErr := by decide

theorem test_decode_beginSend : dec 0b00000101_00000101_00000000 = some .beginSend := by decide

theorem test_decode_critEnter : dec 0b00000101_00000110_00000000 = some .critEnter := by decide

theorem test_decode_critExit : dec 0b00000101_00000111_00000000 = some .critExit := by decide

theorem test_decode_reset : dec 0b00000110_00000000_00000000 = some .reset := by decide

/-- D-1 to D-8: every reserved word of the decoder vectors is refused. -/
theorem test_decode_reserved :
    ([0x000000, 0x070000, 0xFF0000, 0x020100, 0x030001, 0x030100, 0x040001, 0x040102, 0x040200, 0x050800, 0x050001,
      0x060001].all fun w => (dec w).isNone) = true := by decide

/-- D-9 to D-11: a BUS word is never refused, and DATA is ignored where the row ignores it. -/
theorem test_decode_bus_never_refused :
    dec 0x01FFFF = some (.busDefault 0xFF) ∧ dec 0x01280F = some .dataAck ∧ dec 0x01A055 = some .stopRx := by decide

/-- Another injective code map moves the events, and only them. -/
theorem test_decode_other_map :
    (decode { defaultBusCodes with startSent := 0x01 } 0x010100).toOption = some .startSent ∧
    (decode { defaultBusCodes with startSent := 0x01 } 0x010800).toOption = some (.busDefault 0x08) := by decide

/-- The encoder's words for the two operations whose code R68 and R65 leave to an operand. -/
theorem test_encode_operands :
    encode defaultBusCodes (.timerExpire true) = 0x040101 ∧ encode defaultBusCodes (.busDefault 0x10) = 0x011000 := by decide

/-- The table's words reach the decoder at their own length, and a longer one is none (R79). -/
theorem test_decodeTableWord :
    decodeTableWord 24 0x020041 = some (.serRx 0x41) ∧ decodeTableWord 24 0x000000 = none ∧
    decodeTableWord 32 0x020041 = none := by decide

/-- PORT codes and contexts of the agents (R62, R143). -/
theorem test_agents :
    Agent.portCode (Instr.agent .reset) = 0x06 ∧ Agent.context (Instr.agent .beginSend) = .dispatcher ∧
    Agent.context (Instr.agent .timerTick) = .interrupt := by decide

/-- Role and directive codes (R16, R70) and SLA_W of the test configuration (R71). -/
theorem test_codes :
    [Role.stopped, .sending, .receiving, .blockedReceiving].map roleCode = [0, 1, 2, 3] ∧
    [Directive.contAck, .withholdAck, .sendStart, .sendStop].map directiveCode = [0, 1, 2, 3] ∧
    slaW nominalConfig = 0x40 := by decide

/-! ## Assembler lines (30_encoding.md R76), from the encodings of programs P1 to P4 -/

/-- The word of a line under the default code map; `none` for a refused line or one without a word. -/
def asm (line : String) : Option OpWord := (asmLine defaultBusCodes line.toList).toOption.join

theorem test_asm_bus :
    asm "bus 0x80, 0x31 => ser 0x31, CONTINUE" = some 0x018031 ∧ asm "bus SLV_DATA_NACK, 52" = some 0x018834 ∧
    asm "bus 0x28 ; an acknowledged byte" = some 0x012800 := by decide

theorem test_asm_others :
    asm "rx 0x41" = some 0x020041 ∧ asm "txe" = some 0x030000 ∧ asm "tick" = some 0x040000 ∧
    asm "expire 1" = some 0x040101 ∧ asm "host begin_send" = some 0x050500 ∧ asm "reset" = some 0x060000 := by decide

theorem test_asm_refuses :
    asm "expire 2" = none ∧ asm "rx 256" = none ∧ asm "host send" = none ∧ asm "bus 0x80 0x31" = none ∧
    (asmLine defaultBusCodes "; a comment".toList).toOption = some none := by decide

/-! ## Buffers and states used below -/

/-- A buffer of capacity `c` with the bytes from slot 0 on. -/
def ring (c : Nat) (bs : List Byte) : RingBuf :=
  { data := bs.zipIdx.map fun p => (p.2, p.1), head := bs.length % c, tail := 0, count := bs.length }

/-- Capacity 2, full, with its oldest byte in the last slot. -/
def wrapped : RingBuf := { data := [(0, 0xBB), (1, 0xAA)], head := 1, tail := 1, count := 2 }

/-- Sixteen bytes. -/
def sixteen : List Byte := [0, 1, 2, 3, 4, 5, 6, 7, 8, 9, 10, 11, 12, 13, 14, 15]

/-- The reset state with some bytes in OUT. -/
def withOut (bs : List Byte) : State := { State.reset with outBuf := ring 16 bs }

/-- The reset state with some bytes in IN and the transmitter busy. -/
def withIn (bs : List Byte) : State := { State.reset with inBuf := ring 2 bs, txIdle := false, txie := true }

/-- The reset state with a countdown. -/
def withTimer (n : Nat) : State := { State.reset with tmrRunning := true, tmrRemaining := n }

/-- A due stop poll in mid-transaction. -/
def stopDue : State := { withTimer 0 with role := .sending, stopPending := true }

/-- The next state of an outcome. -/
def after (o : Host.Outcome State Fault Refusal) : Option State :=
  match o with
  | .next t => some t
  | .fault _ => none
  | .refused _ => none

/-- One field of the state an operation leaves. -/
def got (i : Instr) (s : State) (f : State → α) : Option α := (after (exec i s)).map f

/-! ## Ring buffers -/

/-- RB1: a push at the last slot wraps the head. -/
theorem test_push_wraps :
    (ringPush 4 { data := [(1, 0x11), (2, 0x22)], head := 3, tail := 1, count := 2 } 0x55).toOption =
      some (some { data := [(1, 0x11), (2, 0x22), (3, 0x55)], head := 0, tail := 1, count := 3 }) := by decide

/-- RB2, RB8: a full buffer answers Full, at capacity 1 too. -/
theorem test_push_full :
    (ringPush 4 (ring 4 [1, 2, 3, 4]) 0x66).toOption = some none ∧
    (ringPush 1 (ring 1 [0xA1]) 0xA2).toOption = some none := by decide

/-- RB4: the pop of the last byte resets both indices; RB3: an empty buffer yields none. -/
theorem test_pop_resets :
    (ringPop 4 { data := [(3, 0x55)], head := 0, tail := 3, count := 1 }).toOption =
      some (some (0x55, { data := [(3, 0x55)], head := 0, tail := 0, count := 0 })) ∧
    (ringPop 4 (ring 4 [])).toOption = some none := by decide

/-- RB5: a pop at the last slot wraps the tail and resets nothing. -/
theorem test_pop_wraps :
    (ringPop 4 { data := [(0, 0x22), (3, 0x11)], head := 1, tail := 3, count := 2 }).toOption =
      some (some (0x11, { data := [(0, 0x22), (3, 0x11)], head := 1, tail := 0, count := 1 })) := by decide

/-- RB6: a peek reads the tail's byte. -/
theorem test_peek : (ringPeek 4 (ring 4 [0x41, 0x42])).toOption = some (some 0x41) := by decide

/-- A write keeps the rising order of the slots, and a slot with no value has none (R47). -/
theorem test_store :
    storeWrite [(0, 1), (2, 3)] 1 9 = [(0, 1), (1, 9), (2, 3)] ∧ storeRead [(0, 1), (2, 3)] 1 = none ∧
    ringPeek 4 { data := [], head := 1, tail := 0, count := 1 } matches .error .unwrittenSlot := by decide

/-! ## One step of each operation -/

/-- M1: the address byte, with no role test. -/
theorem test_startSent :
    got .startSent { State.reset with role := .receiving } State.outputs = some [.bus .contAck (some 0x40)] := by decide

/-- M2: the byte is sent, not taken. -/
theorem test_addrAck_peeks :
    got .addrAck (withOut [0x41, 0x42]) (fun t => (t.outputs, t.outBuf.count)) =
      some ([.bus .contAck (some 0x41)], 2) := by decide

/-- M3: OUT empty ends the data, and the role is not written. -/
theorem test_addrAck_empty :
    got .addrAck State.reset (fun t => (t.outputs, t.stopPending, t.tmrRunning, t.tmrRemaining, t.role)) =
      some ([.bus .sendStop none], true, true, 1, .stopped) := by decide

/-- M7: backoff armed, OUT kept. -/
theorem test_addrNack :
    got .addrNack { withOut [0x55] with role := .sending } (fun t => (t.outputs, t.role, t.tmrRemaining, t.outBuf.count)) =
      some ([.bus .sendStop none], .stopped, 5, 1) := by decide

/-- M8: a running countdown is not replaced. -/
theorem test_addrNack_running :
    got .addrNack { withTimer 2 with role := .sending } (fun t => (t.role, t.tmrRemaining)) = some (.stopped, 2) := by decide

/-- M4: the acknowledged byte is taken and the next one sent. -/
theorem test_dataAck_next :
    got .dataAck (withOut [0x41, 0x42]) (fun t => (t.outputs, t.outBuf.head, t.outBuf.tail, t.outBuf.count)) =
      some ([.bus .contAck (some 0x42)], 2, 1, 1) := by decide

/-- M5: the last byte ends the data; a running countdown stays. -/
theorem test_dataAck_last :
    got .dataAck { withOut [0x4A] with tmrRunning := true, tmrRemaining := 2 }
        (fun t => (t.outputs, t.stopPending, t.tmrRemaining, t.outBuf.head, t.outBuf.count)) =
      some ([.bus .sendStop none], true, 2, 0, 0) := by decide

/-- M9: the intent is kept. -/
theorem test_dataNack :
    got .dataNack { withOut [0x43, 0x44] with role := .sending, readyToSend := true }
        (fun t => (t.role, t.readyToSend, t.tmrRemaining, t.outBuf.count)) = some (.stopped, true, 5, 2) := by decide

/-- M10 and M11: the backoff interval; a stop poll stays as it was. -/
theorem test_arbLost :
    got .arbLost (withOut [0x41]) State.tmrRemaining = some 5 ∧
    got .arbLost { withTimer 1 with role := .sending, stopPending := true }
      (fun t => (t.role, t.stopPending, t.tmrRemaining)) = some (.stopped, true, 1) := by decide

/-- B1 and B3: accepted when Stopped, withheld in mid-transaction. -/
theorem test_slaMatch :
    got .slaMatch State.reset (fun t => (t.role, t.outputs)) = some (.receiving, [.bus .contAck none]) ∧
    got .slaMatch { State.reset with role := .sending } (fun t => (t.role, t.outputs)) =
      some (.sending, [.bus .withholdAck none]) := by decide

/-- B2: IN full at the match. -/
theorem test_slaMatch_full :
    got .slaMatch (withIn [1, 2]) (fun t => (t.role, t.outputs)) =
      some (.blockedReceiving, [.bus .withholdAck none]) := by decide

/-- B4: OUT empty, so no intent; the short interval. The intent is raised with a byte in OUT (R102). -/
theorem test_slaMatchArb :
    got .slaMatchArb { State.reset with role := .sending } (fun t => (t.role, t.readyToSend, t.tmrRemaining)) =
      some (.stopped, false, 1) ∧
    got .slaMatchArb (withOut [0x41]) State.readyToSend = some true := by decide

/-- B5: the fast path. -/
theorem test_slvDataAck_fast :
    got (.slvDataAck 0x31) State.reset (fun t => (t.outputs, t.txIdle, t.txie, t.inBuf.count)) =
      some ([.ser 0x31, .bus .contAck none], false, true, 0) := by decide

/-- B7 and B8: the push that fills IN, and the overflow. -/
theorem test_slvDataAck_backpressure :
    got (.slvDataAck 0x32) (withIn [0x01]) (fun t => (t.role, t.err, t.inBuf, t.outputs)) =
      some (.blockedReceiving, 0x00, ring 2 [0x01, 0x32], [.bus .withholdAck none]) ∧
    got (.slvDataAck 0x35) (withIn [1, 2]) (fun t => (t.role, t.err, t.inBuf)) =
      some (.blockedReceiving, 0x01, ring 2 [1, 2]) := by decide

/-- B9, and the end of BlockedReceiving (R107). -/
theorem test_slvDataNack :
    got (.slvDataNack 0x34) { State.reset with role := .receiving } (fun t => (t.role, t.outputs)) =
      some (.receiving, [.bus .contAck none]) ∧
    got (.slvDataNack 0x34) { State.reset with role := .blockedReceiving } State.role = some .receiving := by decide

/-- B10: Stopped at once, stop_pending kept. -/
theorem test_stopRx :
    got .stopRx { withTimer 1 with role := .sending, stopPending := true }
      (fun t => (t.role, t.stopPending, t.tmrRemaining, t.outputs)) =
      some (.stopped, true, 1, [.bus .contAck none]) := by decide

/-- B11 and B13: recovery with the short interval, whatever the code. -/
theorem test_busDefault :
    got (.busDefault 0xF8) { State.reset with role := .receiving } (fun t => (t.role, t.outputs, t.tmrRemaining)) =
      some (.stopped, [.bus .sendStop none], 1) ∧
    got (.busDefault 0x00) State.reset (fun t => (t.role, t.tmrRemaining)) = some (.stopped, 1) := by decide

/-- S3: the threshold raises the intent and stops the window. -/
theorem test_serRx_threshold :
    got (.serRx 0x49) { withOut [0, 1, 2, 3, 4, 5, 6, 7, 8] with tmrRunning := true, tmrRemaining := 2 }
        (fun t => (t.readyToSend, t.tmrRunning, t.outBuf.count, t.outBuf.head)) = some (true, false, 10, 10) := by decide

/-- S5, S6 and S7: a full OUT flags and still tests the threshold; a stop poll is left alone, unless the parameter says
otherwise. -/
theorem test_serRx_corners :
    got (.serRx 0x99) (withOut sixteen) (fun t => (t.err, t.readyToSend, t.outBuf)) = some (0x02, true, ring 16 sixteen) ∧
    got (.serRx 0x43) { withTimer 1 with stopPending := true } State.tmrRemaining = some 1 ∧
    got (.serRx 0x43)
      { withTimer 1 with stopPending := true, cfg := { nominalConfig with rxTimerOverridesStopPoll := true } }
      State.tmrRemaining = some 3 := by decide

/-- S10 and S11: the last byte goes out; then the interrupt is turned off. -/
theorem test_serTxEmpty :
    got .serTxEmpty (withIn [0x32]) (fun t => (t.outputs, t.inBuf.head, t.inBuf.count, t.txie)) =
      some ([.ser 0x32], 0, 0, true) ∧
    got .serTxEmpty (withIn []) (fun t => (t.txIdle, t.txie)) = some (true, false) := by decide

/-- S12: not enabled with txie = 0. -/
theorem test_serTxEmpty_disabled : got .serTxEmpty State.reset State.fault = some (some .eventNotEnabled) := by decide

/-- T1 and T2: a tick, and no tick at 0 left. -/
theorem test_timerTick :
    got .timerTick (withTimer 2) State.tmrRemaining = some 1 ∧
    got .timerTick (withTimer 0) State.fault = some (some .eventNotEnabled) := by decide

/-- T4 and T8: the intent raised; the stop confirmed. -/
theorem test_timerExpire :
    got (.timerExpire true) (withTimer 0) (fun t => (t.readyToSend, t.tmrRunning)) = some (true, false) ∧
    got (.timerExpire false) { stopDue with stopPolls := 3 } (fun t => (t.role, t.stopPending, t.tmrRunning, t.stopPolls)) =
      some (.stopped, false, false, 0) := by decide

/-- T7 and T6: the second busy poll re-arms, the third records the fault and keeps stop_polls. -/
theorem test_timerExpire_bound :
    got (.timerExpire true) { stopDue with stopPolls := 1, cfg := { nominalConfig with maxStopPolls := some 2 } }
      (fun t => (t.tmrRunning, t.tmrRemaining, t.stopPolls, t.fault)) = some (true, 1, 2, none) ∧
    got (.timerExpire true) { stopDue with stopPolls := 2, cfg := { nominalConfig with maxStopPolls := some 2 } }
      (fun t => (t.stopPolls, t.fault)) = some (2, some .stopPollExhausted) := by decide

/-- H1 and H12: the role is returned, inside a region too. -/
theorem test_readRole :
    got .readRole { State.reset with role := .blockedReceiving } State.outputs = some [.ret 0x03] ∧
    got .readRole { State.reset with critDepth := 1 } State.outputs = some [.ret 0x00] := by decide

/-- P1 step 14: the intent is returned. -/
theorem test_readReady :
    got .readReady { State.reset with readyToSend := true, critDepth := 1 } State.outputs = some [.ret 0x01] := by decide

/-- H2. -/
theorem test_clearReady : got .clearReady { State.reset with readyToSend := true } State.readyToSend = some false := by decide

/-- H3: a read without a clear. -/
theorem test_readErr :
    got .readErr { State.reset with err := 0x03 } (fun t => (t.outputs, t.err)) = some ([.ret 0x03], 0x03) := by decide

/-- H4 and H5. -/
theorem test_readClearErr :
    got .readClearErr { State.reset with err := 0x03 } (fun t => (t.outputs, t.err)) = some ([.ret 0x03], 0x00) ∧
    got .readClearErr State.reset State.outputs = some [.ret 0x00] := by decide

/-- P1 step 15 and H8: the send starts; with OUT empty the intent is cleared and nothing is emitted. -/
theorem test_beginSend :
    got .beginSend { withOut [0x41] with readyToSend := true } (fun t => (t.role, t.readyToSend, t.outputs)) =
      some (.sending, false, [.bus .sendStart none]) ∧
    got .beginSend { State.reset with readyToSend := true } (fun t => (t.role, t.readyToSend, t.outputs)) =
      some (.stopped, false, []) := by decide

/-- H6 and H7: outside the precondition. -/
theorem test_beginSend_contract :
    got .beginSend { withOut [0x01] with role := .receiving, readyToSend := true } State.fault = some (some .hostContract) ∧
    got .beginSend (withOut [0x01]) State.fault = some (some .hostContract) := by decide

/-- P1 step 12 and H9. -/
theorem test_critEnter :
    got .critEnter State.reset State.critDepth = some 1 ∧
    got .critEnter { State.reset with critDepth := 255 } State.fault = some (some .critOverflow) := by decide

/-- H10 and H11. -/
theorem test_critExit :
    got .critExit State.reset State.fault = some (some .critUnderflow) ∧
    got .critExit { State.reset with critDepth := 2 } State.critDepth = some 1 := by decide

/-- R1: every element back at its reset value, and nothing emitted. -/
theorem test_reset :
    got .reset
      { withOut [1, 2] with
        role := .blockedReceiving, inBuf := ring 2 [3], readyToSend := true, stopPending := true, err := 0x03,
        txIdle := false, txie := true, tmrRunning := true, tmrRemaining := 4, stopPolls := 2, critDepth := 2 } id =
      some State.reset := by decide

/-- S13, B14, T10: interrupt steps are masked inside a region, and then only the fault is recorded. -/
theorem test_masked :
    after (exec (.serRx 0x41) { State.reset with critDepth := 1 }) =
      some { State.reset with critDepth := 1, fault := some .eventNotEnabled } ∧
    got .slaMatch { State.reset with critDepth := 1 } State.fault = some (some .eventNotEnabled) ∧
    got .timerTick { withTimer 2 with critDepth := 1 } State.fault = some (some .eventNotEnabled) := by decide

/-! ## Steps -/

/-- S1 through the fetch: the word is taken and run. -/
theorem test_step_runs_word :
    (after (step (State.reset.withFetchWord 24 0x020041))).map (fun t => (t.outBuf, t.tmrRemaining, t.inbox)) =
      some (ring 16 [0x41], 3, []) := by decide

/-- A reserved word records Refused (R77); a faulted state takes no step, not even RESET (R147). -/
theorem test_step_refused :
    (after (step (State.reset.withFetchWord 24 0x050800))).map State.fault = some (some .refused) ∧
    step { (State.reset.withFetchWord 24 0x060000) with fault := some .refused } matches .fault .refused := by decide

/-- With nothing placed, the block idles in the reset state. -/
theorem test_step_idle : after (step State.reset) = some State.reset := by decide

/-! ## Witnesses: the hypotheses of each statement can be met together -/

theorem ringWf_of {c : Nat} {b : RingBuf}
    (h : b.count ≤ c ∧ b.tail < c ∧ b.head = (b.tail + b.count) % c ∧ storeWf b.data ∧ (∀ x ∈ b.data, x.1 < c) ∧
      ∀ k < b.count, (storeRead b.data ((b.tail + k) % c)).isSome = true) : RingWf c b :=
  ⟨h.1, h.2.1, h.2.2.1, h.2.2.2.1, h.2.2.2.2.1, h.2.2.2.2.2⟩

theorem ringWf_empty (c : Nat) (h : 0 < c) : RingWf c (ring c []) :=
  ⟨Nat.zero_le _, h, (Nat.mod_eq_of_lt h).symm ▸ rfl, List.Pairwise.nil, by simp [ring], by simp [ring]⟩

theorem ringWf_wrapped : RingWf 2 wrapped := ringWf_of (by decide)

theorem inv_of {s : State} (hl : s.cfg.Legal) (ho : RingWf s.cfg.cOut s.outBuf) (hi : RingWf s.cfg.cIn s.inBuf)
    (h : s.err &&& 0xFC = 0 ∧ (s.txie = !s.txIdle) ∧ (s.txIdle = true → s.inBuf.count = 0) ∧
      (s.role = .sending → s.stopPending = false → 0 < s.outBuf.count) ∧
      (s.cfg.rxTimerOverridesStopPoll = false → s.stopPending = true → s.tmrRunning = true) ∧
      s.tmrRemaining < 2 ^ s.cfg.tmrWidth) : Safety.Inv s :=
  ⟨hl, ho, hi, h.1, h.2.1, h.2.2.1, h.2.2.2.1, h.2.2.2.2.1, h.2.2.2.2.2⟩

theorem inv_reset : Safety.Inv State.reset :=
  inv_of (by decide) (ringWf_of (by decide)) (ringWf_of (by decide)) (by decide)

/-- A busy state: a live send, IN full and wrapped, a word to come. -/
def busyState : State :=
  { withOut [0x41, 0x42] with
    role := .sending, inBuf := wrapped, txIdle := false, txie := true, err := 0x03, inbox := [0x012800] }

theorem inv_busyState : Safety.Inv busyState :=
  inv_of (by decide) (ringWf_of (by decide)) ringWf_wrapped (by decide)

theorem inv_stopDue : Safety.Inv stopDue :=
  inv_of (by decide) (ringWf_of (by decide)) (ringWf_of (by decide)) (by decide)

/-- ResetStepRestoresElements, FaultFreeStepAnswersNext, HostReadResults, ClearReadyResult, ReadClearErrResult: no fault is
recorded. -/
theorem test_noFault_met : busyState.fault = none ∧ State.reset.fault = none := by decide

/-- EncodeDecodeRoundTrip: at the lowest and the highest code of BUS_DEFAULT and at a data byte. -/
theorem test_EncodeDecodeRoundTrip_met :
    defaultBusCodes.Distinct ∧ wellFormed defaultBusCodes (.busDefault 0x00) = true ∧
    wellFormed defaultBusCodes (.busDefault 0xFF) = true ∧ wellFormed defaultBusCodes (.serRx 0xFF) = true := by decide

/-- DecodeKeepsEveryReadBit: a word that is its own encoding, and one whose DATA is ignored. -/
theorem test_DecodeKeepsEveryReadBit_met :
    dec 0x0180FF = some (.slvDataAck 0xFF) ∧ encode defaultBusCodes (.slvDataAck 0xFF) = 0x0180FF ∧
    dec 0x0128FF = some .dataAck ∧ encode defaultBusCodes .dataAck = 0x012800 := by decide

/-- StepRunsDecodedOperation. -/
theorem test_StepRunsDecodedOperation_met :
    busyState.inbox = [0x012800] ∧ (decode busyState.cfg.busCodes 0x012800).toOption = some .dataAck := by decide

/-- ReservedWordRecordsRefused: a word of each clause. -/
theorem test_ReservedWordRecordsRefused_met :
    (State.reset.withFetchWord 24 0x050800).fault = none ∧
    (State.reset.withFetchWord 24 0x050800).inbox = 0x050800 :: [] ∧ tableMnemonic 0x050800 = none ∧
    (State.reset.withFetchWord 24 0x01FFFF).inbox = 0x01FFFF :: [] ∧ OpWord.port 0x01FFFF = 0x01 := by decide

/-- FaultedStateTakesNoStep. -/
theorem test_FaultedStateTakesNoStep_met :
    { State.reset with fault := some Fault.critUnderflow }.fault = some .critUnderflow := by decide

/-- IdleBlockKeepsState. -/
theorem test_IdleBlockKeepsState_met : State.reset.fault = none ∧ State.reset.inbox = [] := by decide

/-- DisabledWordRecordsEventNotEnabled: a tick and an expiry, not enabled and enabled, at 0 and 1 tick left, and a host
operation at the deepest region. -/
theorem test_DisabledWordRecordsEventNotEnabled_met :
    (withTimer 0).fault = none ∧ (withTimer 1).fault = none ∧
    ¬ Enabled .timerTick (withTimer 0) ∧ Enabled .timerTick (withTimer 1) ∧
    Enabled (.timerExpire true) (withTimer 0) ∧ ¬ Enabled (.timerExpire true) (withTimer 1) ∧
    ¬ Enabled .serTxEmpty State.reset ∧ Enabled .serTxEmpty (withIn []) ∧
    ¬ Enabled .dataAck { State.reset with critDepth := 255 } ∧
    Enabled .critExit { State.reset with critDepth := 255 } := by
  simp [Enabled, Instr.agent, withTimer, withIn, State.reset, State.initial]

/-- PushAppendsOrReportsFull: the full clause at capacities 1 and 2, the other at one byte short of full. -/
theorem test_PushAppendsOrReportsFull_met :
    (RingWf 1 (ring 1 [0xA1]) ∧ (ring 1 [0xA1]).count = 1) ∧ (RingWf 2 wrapped ∧ wrapped.count = 2) ∧
    (RingWf 2 (ring 2 [0x31]) ∧ (ring 2 [0x31]).count ≠ 2) :=
  ⟨⟨ringWf_of (by decide), rfl⟩, ⟨ringWf_wrapped, rfl⟩, ⟨ringWf_of (by decide), by decide⟩⟩

/-- PopTakesOldest, PeekReadsOldest: empty, one byte, and a full buffer that wraps. -/
theorem test_PopTakesOldest_met :
    (RingWf 1 (ring 1 []) ∧ (ring 1 []).count = 0) ∧ (RingWf 2 (ring 2 [0x31]) ∧ (ring 2 [0x31]).count = 1) ∧
    (RingWf 2 wrapped ∧ wrapped.count = 2 ∧ contents 2 wrapped = [0xAA, 0xBB]) :=
  ⟨⟨ringWf_empty 1 (by decide), rfl⟩, ⟨ringWf_of (by decide), rfl⟩, ⟨ringWf_wrapped, rfl, by decide⟩⟩

theorem test_PeekReadsOldest_met : (RingWf 2 (ring 2 []) ∧ RingWf 2 wrapped) ∧ 0 < wrapped.count :=
  ⟨⟨ringWf_empty 2 (by decide), ringWf_wrapped⟩, by decide⟩

/-- BufferRoundTrip: one push at capacity 1, and a wrapped buffer already full. -/
theorem test_BufferRoundTrip_met :
    (RingWf 1 (ring 1 []) ∧ 0 < (ring 1 []).count + [(0x55 : Byte)].length ∧
      (ring 1 []).count + [(0x55 : Byte)].length ≤ 1) ∧
    (RingWf 2 wrapped ∧ 0 < wrapped.count + ([] : List Byte).length ∧ wrapped.count + ([] : List Byte).length ≤ 2) :=
  ⟨⟨ringWf_empty 1 (by decide), by decide, by decide⟩, ⟨ringWf_wrapped, by decide, by decide⟩⟩

/-- SerRxResult: OUT full; OUT one byte short of the threshold; a stop poll running, with and without the override. -/
theorem test_SerRxResult_met :
    (withOut sixteen).fault = none ∧ (withOut sixteen).critDepth = 0 ∧
    RingWf (withOut sixteen).cfg.cOut (withOut sixteen).outBuf ∧
    (withOut sixteen).outBuf.count = (withOut sixteen).cfg.cOut ∧
    RingWf State.reset.cfg.cOut (withOut [0, 1, 2, 3, 4, 5, 6, 7, 8]).outBuf ∧
    (stopDue.fault = none ∧ stopDue.critDepth = 0 ∧ RingWf stopDue.cfg.cOut stopDue.outBuf ∧ stopDue.stopPending = true) :=
  ⟨rfl, rfl, ringWf_of (by decide), rfl, ringWf_of (by decide), rfl, rfl, ringWf_of (by decide), rfl⟩

/-- SerTxEmptyResult: IN empty, with one byte, and full. -/
theorem test_SerTxEmptyResult_met :
    ((withIn []).fault = none ∧ (withIn []).critDepth = 0 ∧ (withIn []).txie = true ∧
      RingWf (withIn []).cfg.cIn (withIn []).inBuf ∧ (withIn []).inBuf.count = 0) ∧
    (RingWf 2 (withIn [0x32]).inBuf ∧ (withIn [0x32]).txie = true ∧ (withIn [0x32]).inBuf.count = 1) ∧
    (busyState.fault = none ∧ busyState.critDepth = 0 ∧ busyState.txie = true ∧
      RingWf busyState.cfg.cIn busyState.inBuf ∧ busyState.inBuf.count = 2) :=
  ⟨⟨rfl, rfl, rfl, ringWf_of (by decide), rfl⟩, ⟨ringWf_of (by decide), rfl, rfl⟩, rfl, rfl, rfl, ringWf_wrapped, rfl⟩

/-- StartSentResult, AbortEventsResult, SlaMatchArbResult, SlvDataNackResult, StopRxResult, BusDefaultResult: no fault, no
region; the timer stopped and running, OUT empty and not. -/
theorem test_interruptsOpen_met :
    (busyState.fault = none ∧ busyState.critDepth = 0 ∧ busyState.tmrRunning = false ∧ 0 < busyState.outBuf.count) ∧
    (stopDue.fault = none ∧ stopDue.critDepth = 0 ∧ stopDue.tmrRunning = true ∧ stopDue.outBuf.count = 0) := by decide

/-- SlaMatchResult: each of the three clauses. -/
theorem test_SlaMatchResult_met :
    (State.reset.fault = none ∧ State.reset.critDepth = 0 ∧ State.reset.role = .stopped ∧
      State.reset.inBuf.count ≠ State.reset.cfg.cIn) ∧
    ((withIn [1, 2]).fault = none ∧ (withIn [1, 2]).critDepth = 0 ∧ (withIn [1, 2]).role = .stopped ∧
      (withIn [1, 2]).inBuf.count = (withIn [1, 2]).cfg.cIn) ∧
    (busyState.fault = none ∧ busyState.critDepth = 0 ∧ busyState.role ≠ .stopped) := by decide

/-- AddrAckResult, DataAckResult: OUT with 0, 1 and 2 bytes. -/
theorem test_DataAckResult_met :
    (State.reset.fault = none ∧ State.reset.critDepth = 0 ∧ RingWf State.reset.cfg.cOut State.reset.outBuf ∧
      State.reset.outBuf.count = 0) ∧
    ((withOut [0x4A]).fault = none ∧ (withOut [0x4A]).critDepth = 0 ∧ RingWf 16 (withOut [0x4A]).outBuf ∧
      (withOut [0x4A]).outBuf.count = 1) ∧
    (busyState.fault = none ∧ busyState.critDepth = 0 ∧ RingWf busyState.cfg.cOut busyState.outBuf ∧
      busyState.outBuf.count = 2) :=
  ⟨⟨rfl, rfl, ringWf_of (by decide), rfl⟩, ⟨rfl, rfl, ringWf_of (by decide), rfl⟩, rfl, rfl, ringWf_of (by decide), rfl⟩

theorem test_AddrAckResult_met :
    (stopDue.fault = none ∧ stopDue.critDepth = 0 ∧ RingWf stopDue.cfg.cOut stopDue.outBuf ∧ stopDue.outBuf.count = 0) ∧
    (busyState.fault = none ∧ busyState.critDepth = 0 ∧ RingWf busyState.cfg.cOut busyState.outBuf ∧
      busyState.outBuf.count ≠ 0) :=
  ⟨⟨rfl, rfl, ringWf_of (by decide), rfl⟩, rfl, rfl, ringWf_of (by decide), by decide⟩

/-- SlvDataAckResult: the fast path, the overflow, the push that fills IN, and, with the transmitter busy and IN empty at
capacity 2, the plain push. -/
theorem test_SlvDataAckResult_met :
    (State.reset.fault = none ∧ State.reset.critDepth = 0 ∧ RingWf State.reset.cfg.cIn State.reset.inBuf ∧
      State.reset.inBuf.count = 0 ∧ State.reset.txIdle = true) ∧
    (busyState.fault = none ∧ busyState.critDepth = 0 ∧ RingWf busyState.cfg.cIn busyState.inBuf ∧
      busyState.inBuf.count = busyState.cfg.cIn) ∧
    ((withIn [1]).fault = none ∧ (withIn [1]).critDepth = 0 ∧ RingWf 2 (withIn [1]).inBuf ∧
      (withIn [1]).inBuf.count + 1 = (withIn [1]).cfg.cIn) ∧
    ((withIn []).fault = none ∧ (withIn []).critDepth = 0 ∧ RingWf 2 (withIn []).inBuf ∧
      (withIn []).txIdle = false ∧ (withIn []).inBuf.count + 1 ≠ (withIn []).cfg.cIn) :=
  ⟨⟨rfl, rfl, ringWf_of (by decide), rfl, rfl⟩, ⟨rfl, rfl, ringWf_wrapped, rfl⟩,
    ⟨rfl, rfl, ringWf_of (by decide), rfl⟩, rfl, rfl, ringWf_of (by decide), rfl, by decide⟩

/-- TimerTickResult: one tick left. -/
theorem test_TimerTickResult_met :
    (withTimer 1).fault = none ∧ (withTimer 1).critDepth = 0 ∧ (withTimer 1).tmrRunning = true ∧
    0 < (withTimer 1).tmrRemaining := by decide

/-- TimerExpireResult: no stop pending; a stop pending with stop_polls at the bound, one below it, and saturated with no
bound. -/
theorem test_TimerExpireResult_met :
    ((withTimer 0).fault = none ∧ (withTimer 0).critDepth = 0 ∧ (withTimer 0).tmrRunning = true ∧
      (withTimer 0).tmrRemaining = 0 ∧ (withTimer 0).stopPending = false) ∧
    (stopDue.fault = none ∧ stopDue.critDepth = 0 ∧ stopDue.tmrRunning = true ∧ stopDue.tmrRemaining = 0 ∧
      stopDue.stopPending = true) ∧
    (∃ m, (some 2 : Option Nat) = some m ∧ m ≤ (2 : Byte).toNat) ∧
    (¬ ∃ m, (some 2 : Option Nat) = some m ∧ m ≤ (1 : Byte).toNat) ∧
    (¬ ∃ m, stopDue.cfg.maxStopPolls = some m ∧ m ≤ (255 : Byte).toNat) := by
  refine ⟨by decide, by decide, ⟨2, rfl, by decide⟩, ?_, ?_⟩
  · simp
  · simp [stopDue, withTimer, State.reset, State.initial, nominalConfig]

/-- BeginSendResult: the precondition with OUT empty and with a byte, and each way to miss it. -/
theorem test_BeginSendResult_met :
    ({ withOut [0x41] with readyToSend := true }.fault = none ∧ (withOut [0x41]).role = .stopped ∧
      0 < (withOut [0x41]).outBuf.count) ∧
    ({ State.reset with readyToSend := true }.fault = none ∧ State.reset.role = .stopped ∧
      State.reset.outBuf.count = 0) ∧
    (State.reset.fault = none ∧ State.reset.readyToSend = false) ∧
    (busyState.fault = none ∧ busyState.role ≠ .stopped) := by decide

/-- CriticalRegionResults: depths 0 and 255. -/
theorem test_CriticalRegionResults_met :
    (State.reset.fault = none ∧ State.reset.critDepth = 0) ∧
    ({ State.reset with critDepth := 255 }.fault = none ∧ { State.reset with critDepth := 255 }.critDepth = 255) := by
  decide

/-- OperationFrame, BufferByteFrame: a step that writes a buffer, one that faults, and elements outside their lists. -/
theorem test_OperationFrame_met :
    (got (.serRx 0x41) State.reset id).isSome = true ∧ Element.inData ∉ mayWrite (.serRx 0x41) ∧
    (got .critExit State.reset id).isSome = true ∧ Element.critDepth ∈ mayWrite .critExit ∧
    Element.role ∉ mayWrite .critExit ∧ Element.fault ∉ mayWrite .reset := by decide

theorem test_BufferByteFrame_met :
    (got (.slvDataAck 0x32) (withIn [0x01]) id).isSome = true ∧ Instr.slvDataAck 0x32 ≠ .reset ∧
    (0 : Nat) ≠ (withIn [0x01]).inBuf.head ∧ (got .dataAck busyState id).isSome = true := by decide

/-- ResetMeetsInvariant: legal configurations at the ends of R8's ranges. -/
theorem test_ResetMeetsInvariant_met :
    ([{ nominalConfig with cOut := 1, cIn := 1, threshold := 1, tIdle := 1 },
      { nominalConfig with cOut := 128, cIn := 128, threshold := 255, tIdle := 255 }].all
        fun c => decide (Config.Legal c)) = true := by decide

/-- StepKeepsInvariant, BufferAccessesAreSound: an idle step, and DATA_ACK in mid-transaction. -/
theorem test_StepKeepsInvariant_met :
    (Safety.Inv State.reset ∧ (after (step State.reset)).isSome = true) ∧
    (Safety.Inv busyState ∧ (after (step busyState)).isSome = true) :=
  ⟨⟨inv_reset, by decide⟩, inv_busyState, by decide⟩

/-- RoleTransitions: a step of each disjunct changes the role. -/
theorem test_RoleTransitions_met :
    got .beginSend { withOut [0x41] with readyToSend := true } State.role = some .sending ∧
    got .slaMatch State.reset State.role = some .receiving ∧ got .stopRx busyState State.role = some .stopped ∧
    got (.slvDataAck 0x32) (withIn [0x01]) State.role = some .blockedReceiving ∧
    got (.slvDataNack 0) { State.reset with role := .blockedReceiving } State.role = some .receiving ∧
    got (.timerExpire false) stopDue State.role = some .stopped ∧ got .reset busyState State.role = some .stopped := by
  decide

/-- ReadyToSendTransitions: a step that raises and a step that drops. -/
theorem test_ReadyToSendTransitions_met :
    (State.reset.readyToSend = false ∧ got (.timerExpire true) (withTimer 0) State.readyToSend = some true) ∧
    ({ State.reset with readyToSend := true }.readyToSend = true ∧
      got .clearReady { State.reset with readyToSend := true } State.readyToSend = some false) := by decide

/-- StopPendingTransitions: it rises at the end of the data and falls at the confirmation. -/
theorem test_StopPendingTransitions_met :
    ((withOut [0x4A]).stopPending = false ∧ got .dataAck (withOut [0x4A]) State.stopPending = some true) ∧
    (stopDue.stopPending = true ∧ got (.timerExpire false) stopDue State.stopPending = some false) := by decide

/-- ErrBitsSticky: a step that clears, and an overflow on each side. -/
theorem test_ErrBitsSticky_met :
    got .readClearErr { State.reset with err := 0x03 } State.err = some 0x00 ∧
    got (.slvDataAck 0x35) (withIn [1, 2]) State.err = some 0x01 ∧
    got (.serRx 0x99) (withOut sixteen) State.err = some 0x02 := by decide

/-- OneDirectivePerBusStep: a BUS step, a BEGIN_SEND with and without a byte, and another step, none a fault. -/
theorem test_OneDirectivePerBusStep_met :
    got .dataAck busyState State.fault = some none ∧
    got .beginSend { withOut [0x41] with readyToSend := true } State.fault = some none ∧
    got .beginSend { State.reset with readyToSend := true } State.fault = some none ∧
    got .readErr State.reset State.fault = some none := by decide

/-- SerialOutputOrder, OutboundBytesKeptInOrder: a run with an overflow on the bus side and a NACK on the other. -/
theorem test_streams_met :
    Safety.Inv State.reset ∧
    .reset ∉ [Instr.slvDataAck 0x31, .slvDataAck 0x32, .slvDataAck 0x33, .slvDataAck 0x34, .serTxEmpty, .serRx 0x41,
      .serRx 0x42, .dataNack, .dataAck] ∧
    ((runAll [.slvDataAck 0x31, .slvDataAck 0x32, .slvDataAck 0x33, .slvDataAck 0x34, .serTxEmpty, .serRx 0x41,
      .serRx 0x42, .dataNack, .dataAck] State.reset).map
        fun t => (serBytes t.outputs, contents 2 t.inBuf, contents 16 t.outBuf)) =
      some ([0x31, 0x32], [0x33], [0x42]) :=
  ⟨inv_reset, by decide, by decide⟩

/-- TrySendKeepsContract: a send that starts, at depth 0 and at depth 254. -/
theorem test_TrySendKeepsContract_met :
    ({ withOut [0x41] with readyToSend := true }.fault = none ∧ (withOut [0x41]).critDepth ≠ 255) ∧
    ({ State.reset with critDepth := 254 }.fault = none ∧ { State.reset with critDepth := 254 }.critDepth ≠ 255) := by
  decide

/-- FlushResolvesIntent: with a stop pending and without, at 0 ticks and at 3. -/
theorem test_FlushResolvesIntent_met :
    (stopDue.fault = none ∧ stopDue.critDepth = 0 ∧ stopDue.tmrRunning = true ∧ stopDue.stopPending = true) ∧
    ((withTimer 3).fault = none ∧ (withTimer 3).critDepth = 0 ∧ (withTimer 3).tmrRunning = true ∧
      (withTimer 3).stopPending = false) := by decide

/-- NackBackoffHoldsOffRetry: P2 steps 14 to 19, four ticks of five and a read; both clauses. -/
theorem test_NackBackoffHoldsOffRetry_met :
    let s : State := { withOut [0x55, 0x56] with role := .sending }
    let is : List Instr := [.readReady, .timerTick, .timerTick, .timerTick, .timerTick]
    s.fault = none ∧ s.critDepth = 0 ∧ s.tmrRunning = false ∧ s.readyToSend = false ∧ s.stopPending = false ∧
      .slaMatchArb ∉ is ∧ .reset ∉ is ∧ is.count .timerTick < s.cfg.tBackoff ∧
      (runAll (.addrNack :: is) s).isSome = true ∧ (is.all fun i => match i with | .serRx _ => false | _ => true) := by
  decide

/-- StopPollBound: MAX_STOP_POLLS at 1 and at 255. -/
theorem test_StopPollBound_met :
    stopDue.fault = none ∧ stopDue.critDepth = 0 ∧ stopDue.stopPending = true ∧ stopDue.tmrRunning = true ∧
    stopDue.tmrRemaining = 0 ∧ stopDue.stopPolls = 0 ∧
    { stopDue with cfg := { nominalConfig with maxStopPolls := some 1 } }.cfg.maxStopPolls = some 1 ∧
    { stopDue with cfg := { nominalConfig with maxStopPolls := some 255 } }.cfg.maxStopPolls = some 255 := by decide

/-- The operations of a fair run in which a pending stop is confirmed at once and the Dispatcher then withdraws its intent
for ever. -/
def fairOps : Nat → Instr
  | 0 => .timerExpire false
  | _ + 1 => .clearReady

/-- Its states. -/
def fairStates : Nat → State
  | 0 => stopDue
  | _ + 1 => { stopDue with tmrRunning := false, stopPending := false, stopPolls := 0, role := .stopped }

/-- StopConfirmationTerminates. -/
theorem test_StopConfirmationTerminates_met :
    EndlessRun fairOps fairStates ∧ Safety.Inv (fairStates 0) ∧
    (fairStates 0).cfg.rxTimerOverridesStopPoll = false ∧ (∀ n, fairOps n ≠ .reset) ∧
    FairTimer fairOps fairStates ∧ BusyEnds fairOps fairStates ∧ RegionsEnd fairStates ∧
    (fairStates 0).stopPending = true := by
  have later : ∀ m, 1 ≤ m → (fairStates m).tmrRunning = false ∧ (fairStates m).stopPending = false := by
    intro m hm
    obtain ⟨k, rfl⟩ : ∃ k, m = k + 1 := ⟨m - 1, by omega⟩
    exact ⟨rfl, rfl⟩
  refine ⟨⟨fun n => ?_, fun n => ?_⟩, inv_stopDue, rfl, fun n => ?_, fun n h => ?_, fun n h => ?_, fun n => ?_, rfl⟩
  · cases n <;> rfl
  · cases n <;> rfl
  · cases n <;> simp [fairOps]
  · obtain ⟨m, hm, _, hr⟩ := h (n + 1) (by omega)
    exact absurd hr (by simp [SourceEnabled, (later m (by omega)).1])
  · obtain ⟨m, _, hm, _, hp⟩ := h (n + 1) (by omega)
    rw [(later m (by omega)).2] at hp
    cases hp
  · exact ⟨n, le_refl n, by cases n <;> rfl⟩

/-- The operations of a fair run with a byte waiting in IN: it goes out, the interrupt is turned off, and the Dispatcher
withdraws its intent for ever. -/
def drainOps : Nat → Instr
  | 0 => .serTxEmpty
  | 1 => .serTxEmpty
  | _ + 2 => .clearReady

/-- Its states. -/
def drainStates : Nat → State
  | 0 => withIn [0x32]
  | 1 => { withIn [0x32] with inBuf := afterPop 2 (ring 2 [0x32]), outputs := [.ser 0x32] }
  | _ + 2 =>
    { withIn [0x32] with
      inBuf := afterPop 2 (ring 2 [0x32]), outputs := [.ser 0x32], txie := false, txIdle := true }

/-- WaitingBytesAreSent: the transmit register can always take a byte. -/
theorem test_WaitingBytesAreSent_met :
    EndlessRun drainOps drainStates ∧ Safety.Inv (drainStates 0) ∧ (∀ n, drainOps n ≠ .reset) ∧
    PendingTrace drainOps drainStates (fun _ a => a = .stx) ∧
    FairEvents drainOps drainStates (fun _ a => a = .stx) ∧ RegionsEnd drainStates ∧
    (drainStates 0).inBuf.count = 1 := by
  have later : ∀ m, 2 ≤ m → (drainStates m).txie = false := by
    intro m hm
    obtain ⟨k, rfl⟩ : ∃ k, m = k + 2 := ⟨m - 2, by omega⟩
    rfl
  refine ⟨⟨fun n => ?_, fun n => ?_⟩, ?_, fun n => ?_, ⟨fun n h => ?_, fun n a _ h _ _ _ => h⟩, fun a n _ h => ?_,
    fun n => ?_, rfl⟩
  · rcases n with _ | _ | n <;> rfl
  · rcases n with _ | _ | n <;> rfl
  · exact inv_of (by decide) (ringWf_of (by decide)) (ringWf_of (by decide)) (by decide)
  · rcases n with _ | _ | n <;> simp [drainOps]
  · rcases n with _ | _ | n <;> simp_all [drainOps, Instr.agent, IsPeripheral]
  · obtain ⟨m, hm, rfl, _, ht⟩ := h (n + 2) (by omega)
    exact absurd ht (by simp [SourceEnabled, later m (by omega)])
  · exact ⟨n, le_refl n, by rcases n with _ | _ | n <;> rfl⟩

/-- WaitingBytesAreSent, its other clause: a transmit register that never can take a byte. -/
theorem test_WaitingBytesAreSent_stuck_met :
    EndlessRun (fun _ => .clearReady) (fun _ => withIn [0x32]) ∧ Safety.Inv (withIn [0x32]) ∧
    PendingTrace (fun _ => .clearReady) (fun _ => withIn [0x32]) (fun _ _ => False) ∧
    FairEvents (fun _ => .clearReady) (fun _ => withIn [0x32]) (fun _ _ => False) ∧
    RegionsEnd (fun _ => withIn [0x32]) :=
  ⟨⟨fun _ => rfl, fun _ => rfl⟩,
    inv_of (by decide) (ringWf_of (by decide)) (ringWf_of (by decide)) (by decide),
    ⟨fun _ h => by simp [IsPeripheral, Instr.agent] at h, fun _ _ _ h _ _ _ => h⟩,
    fun _ n _ h => by obtain ⟨_, _, hp, _⟩ := h n (le_refl n); exact hp.elim,
    fun n => ⟨n, le_refl n, rfl⟩⟩

/-- The operations of a fair run that serves a received byte, then a bus event, after which the Dispatcher withdraws its
intent for ever. -/
def servedOps : Nat → Instr
  | 0 => .serRx 0x41
  | 1 => .stopRx
  | _ + 2 => .clearReady

/-- The state after one operation. -/
def ran (i : Instr) (s : State) : State := (after (exec i s)).getD s

/-- Its states, from a start state. -/
def servedStates (s : State) : Nat → State
  | 0 => s
  | 1 => ran (.serRx 0x41) s
  | 2 => ran .stopRx (ran (.serRx 0x41) s)
  | _ + 3 => ran .clearReady (ran .stopRx (ran (.serRx 0x41) s))

/-- What its peripherals hold: the byte before step 0, the bus event before steps 0 and 1. -/
def servedPend (n : Nat) (a : Agent) : Prop := (n = 0 ∧ a = .srx) ∨ (n ≤ 1 ∧ a = .bus)

/-- PendingEventsAreServed: with OUT empty and with OUT full. -/
theorem test_PendingEventsAreServed_met : ∀ s ∈ [withOut [], withOut sixteen],
    EndlessRun servedOps (servedStates s) ∧ Safety.Inv (servedStates s 0) ∧ (∀ n, servedOps n ≠ .reset) ∧
    PendingTrace servedOps (servedStates s) servedPend ∧ FairEvents servedOps (servedStates s) servedPend ∧
    RegionsEnd (servedStates s) ∧ servedPend 0 .srx ∧ servedPend 0 .bus := by
  intro s hs
  refine ⟨⟨fun n => ?_, fun n => ?_⟩, ?_, fun n => ?_, ⟨fun n h => ?_, fun n a _ h _ hne _ => ?_⟩, fun a n _ h => ?_,
    fun n => ⟨n, le_refl n, ?_⟩, Or.inl ⟨rfl, rfl⟩, Or.inr ⟨by decide, rfl⟩⟩
  · rcases List.mem_pair.1 hs with rfl | rfl <;> rcases n with _ | _ | _ | n <;> rfl
  · rcases List.mem_pair.1 hs with rfl | rfl <;> rcases n with _ | _ | _ | n <;> rfl
  · rcases List.mem_pair.1 hs with rfl | rfl <;>
      exact inv_of (by decide) (ringWf_of (by decide)) (ringWf_of (by decide)) (by decide)
  · rcases n with _ | _ | n <;> simp [servedOps]
  · rcases n with _ | _ | n <;> simp_all [servedOps, servedPend, Instr.agent, IsPeripheral]
  · rcases h with ⟨rfl, rfl⟩ | ⟨hn, rfl⟩
    · exact absurd rfl hne
    · rcases n with _ | _ | n
      · exact Or.inr ⟨by decide, rfl⟩
      · exact absurd rfl hne
      · omega
  · obtain ⟨m, hm, hp, _⟩ := h (n + 2) (by omega)
    simp only [servedPend] at hp
    omega
  · rcases List.mem_pair.1 hs with rfl | rfl <;> rcases n with _ | _ | _ | n <;> rfl

/-- DispatcherBlindSpots: a Dispatcher operation. -/
theorem test_DispatcherBlindSpots_met : Instr.agent .beginSend = .host ∧ Instr.agent .critExit = .host := by decide

/-- StaleConfirmationAdmitted: a send requested while a stop poll is due. -/
theorem test_StaleConfirmationAdmitted_met :
    let s : State := { stopDue with role := .stopped, readyToSend := true, outBuf := ring 16 [0x41] }
    s.fault = none ∧ s.critDepth = 0 ∧ s.role = .stopped ∧ s.readyToSend = true ∧ s.stopPending = true ∧
      s.tmrRunning = true ∧ s.tmrRemaining = 0 ∧ 0 < s.outBuf.count := by decide

/-- PersistentBackpressure: IN full at capacity 2. -/
theorem test_PersistentBackpressure_met :
    let s : State := { withIn [1, 2] with role := .blockedReceiving }
    s.fault = none ∧ s.critDepth = 0 ∧ s.role = .blockedReceiving ∧ s.inBuf.count = s.cfg.cIn ∧ 0 < s.cfg.cIn := by decide

end Sys2Proof.Tests
end

namespace Sys2Proof.Proofs

open Sys2Proof.Machine Sys2Proof.Laws

/-! ### What a next state can be -/

/-- A property of the next state holds if every recorded fault has it and every state the body answers has it. -/
theorem exec_next_of_opBody {i : Instr} {s t : State} {P : State → Prop} (h : exec i s = .next t)
    (hfault : ∀ k, P (recordFault s k)) (hbody : ∀ u, opBody i s = .ok u → P u) : P t := by
  obtain ⟨-, ⟨-, rfl⟩ | ⟨-, hok⟩ | ⟨-, k, -, rfl⟩⟩ := exec_next h
  · exact hfault _
  · exact hbody t hok
  · exact hfault k

/-- The next state of an enabled operation whose body answers a state is that state. -/
theorem exec_next_eq_of_ok {i : Instr} {s t u : State} (h : exec i s = .next t) (hen : opEnabled i s = true)
    (hok : opBody i s = .ok u) : t = u := by
  obtain ⟨hf, -⟩ := exec_next h
  rw [exec_eq_performStep, hok, performStep_ok hf hen] at h
  cases h
  rfl

/-! ### What each body does to `err` (10_state.md R23) -/

@[simp] theorem slaMatchState_err (s : State) : (slaMatchState s).err = s.err := by
  unfold slaMatchState
  split_ifs <;> rfl

@[simp] theorem slaMatchArbState_err (s : State) : (slaMatchArbState s).err = s.err := by
  unfold slaMatchArbState
  split_ifs <;> simp

@[simp] theorem slvDataNackState_err (d : Byte) (s : State) : (slvDataNackState d s).err = s.err := by
  unfold slvDataNackState
  split_ifs <;> rfl

@[simp] theorem readClearErrState_err (s : State) : (readClearErrState s).err = 0x00 := by
  unfold readClearErrState
  split_ifs with he
  · rfl
  · simpa using he

theorem transmitTail_err {s t : State} (h : transmitTail s = .ok t) : t.err = s.err := by
  rcases transmitTail_cases h with ⟨-, hr⟩ | ⟨-, v, -, hr⟩ | ⟨-, ⟨-, -, hr⟩ | ⟨-, hr⟩⟩ <;> cases hr
  · exact endOfData_err s
  · exact emitBus_err s _ _

theorem dataAckBody_err {s t : State} (h : dataAckBody s = .ok t) : t.err = s.err := by
  rcases dataAckBody_cases s with ⟨-, hr⟩ | ⟨-, v, -, hr⟩ | ⟨-, ⟨-, -, hr⟩ | ⟨-, hr⟩⟩ <;> rw [hr] at h
  · cases h
    exact endOfData_err s
  · rw [transmitTail_err h]
  · cases h
  · cases h

theorem serTxEmptyBody_err {s t : State} (h : serTxEmptyBody s = .ok t) : t.err = s.err := by
  rcases serTxEmptyBody_cases s with ⟨-, hr⟩ | ⟨-, v, -, hr⟩ | ⟨-, ⟨-, -, hr⟩ | ⟨-, hr⟩⟩ <;>
    rw [hr] at h <;> cases h <;> rfl

theorem timerExpireBody_err {busy : Bool} {s t : State} (h : timerExpireBody busy s = .ok t) : t.err = s.err := by
  rcases timerExpireBody_cases busy s with ⟨-, hr⟩ | ⟨-, -, hr⟩ | ⟨-, -, -, hr⟩ | ⟨-, -, -, hr⟩ <;>
    rw [hr] at h <;> cases h <;> rfl

theorem beginSendBody_err {s t : State} (h : beginSendBody s = .ok t) : t.err = s.err := by
  unfold beginSendBody at h
  split_ifs at h <;> cases h <;> rfl

/-- SER_RX sets OUT_OVF when OUT is full and otherwise keeps `err` (R89). -/
theorem serRxBody_err {b : Byte} {s t : State} (h : serRxBody b s = .ok t) :
    t.err = s.err ∨ t.err = s.err ||| 0x02 := by
  rcases serRxBody_cases b s with ⟨-, hr⟩ | ⟨-, -, hr⟩ | ⟨-, -, hr⟩ <;> rw [hr] at h <;> cases h
  · exact .inr rfl
  · exact .inl rfl

/-- SLV_DATA_ACK sets IN_OVF when IN is full and otherwise keeps `err` (R106). -/
theorem slvDataAckBody_err {d : Byte} {s t : State} (h : slvDataAckBody d s = .ok t) :
    t.err = s.err ∨ t.err = s.err ||| 0x01 := by
  rcases slvDataAckBody_cases d s with ⟨-, hr⟩ | ⟨-, -, hr⟩ | ⟨-, -, -, hr⟩ | ⟨-, -, hr⟩ <;> rw [hr] at h <;> cases h
  · exact .inl rfl
  · exact .inr rfl
  · left
    split_ifs <;> rfl

/-- A body other than those of READ_CLEAR_ERR and RESET keeps `err`, or ORs in the bit of its own operation (R23). -/
theorem opBody_err {i : Instr} {s t : State} (hi : ¬ (i = .readClearErr ∨ i = .reset)) (h : opBody i s = .ok t) :
    t.err = s.err ∨ ((∃ d, i = .slvDataAck d) ∧ t.err = s.err ||| 0x01) ∨
      ((∃ b, i = .serRx b) ∧ t.err = s.err ||| 0x02) := by
  cases i with
  | readClearErr | reset => simp at hi
  | slvDataAck d => exact (slvDataAckBody_err h).imp_right fun he => .inl ⟨⟨d, rfl⟩, he⟩
  | serRx b => exact (serRxBody_err h).imp_right fun he => .inr ⟨⟨b, rfl⟩, he⟩
  | addrAck => exact .inl (transmitTail_err h)
  | dataAck => exact .inl (dataAckBody_err h)
  | serTxEmpty => exact .inl (serTxEmptyBody_err h)
  | timerExpire => exact .inl (timerExpireBody_err h)
  | beginSend => exact .inl (beginSendBody_err h)
  | critEnter | critExit =>
    simp only [opBody] at h
    split_ifs at h
    cases h
    exact .inl rfl
  | startSent | addrNack | dataNack | arbLost | slaMatch | slaMatchArb | slvDataNack | stopRx | busDefault
  | timerTick | readRole | readReady | clearReady | readErr =>
    cases h
    exact .inl (by simp)

/-- Settles O44: the two clearing operations always run and leave `err` at 0; a recorded fault keeps `err`, and any other
body is covered by `opBody_err`. -/
theorem errBitsSticky : Obligations.ErrBitsSticky := by
  unfold Obligations.ErrBitsSticky
  intro i s t h
  split_ifs with hi
  · obtain rfl | rfl := hi
    · rw [exec_next_eq_of_ok h rfl rfl, readClearErrState_err]
    · rw [exec_next_eq_of_ok h rfl rfl]
      rfl
  · exact exec_next_of_opBody h (fun k => .inl (recordFault_err s k)) fun u hu => opBody_err hi hu

end Sys2Proof.Proofs

namespace Sys2Proof.Proofs

open Sys2Proof.Machine Sys2Proof.Safety Sys2Proof.Laws

/-! ### What a push and a pop answer on a well-formed buffer (40_ring_buffer.md R80, R81) -/

/-- A push on a well-formed buffer with room raises no fault: `head` is a legal index. -/
theorem ringPush_eq_pushed {c : Nat} {b : RingBuf} (v : Byte) (h : RingWf c b) (hc : b.count ≠ c) :
    ringPush c b v = .ok (some (pushed c b v)) := by
  obtain ⟨hfull, -⟩ | ⟨-, -, hp⟩ | ⟨-, hhead, -⟩ := ringPush_cases c b v
  · exact absurd hfull hc
  · exact hp
  · exact absurd (ringWf_head_lt h) hhead

/-- A pop on a well-formed buffer that holds a byte raises no fault: the oldest slot is legal and written. -/
theorem ringPop_eq_afterPop {c : Nat} {b : RingBuf} (h : RingWf c b) (hc : 0 < b.count) :
    ∃ v, storeRead b.data b.tail = some v ∧ ringPop c b = .ok (some (v, afterPop c b)) := by
  obtain ⟨hempty, -⟩ | ⟨-, v, -, hv, hp⟩ | ⟨-, ⟨-, hnone, -⟩ | ⟨htail, -⟩⟩ := ringPop_cases c b
  · exact absurd hempty hc.ne'
  · exact ⟨v, hv, hp⟩
  · obtain ⟨v, hv⟩ := ringWf_tail_written h hc
    simp [hnone] at hv
  · exact absurd h.tailLt htail

/-! ### The fields of a popped buffer (R81) -/

@[simp] theorem afterPop_data (c : Nat) (b : RingBuf) : (afterPop c b).data = b.data := by
  unfold afterPop
  split_ifs <;> rfl

@[simp] theorem afterPop_count (c : Nat) (b : RingBuf) : (afterPop c b).count = b.count - 1 := by
  unfold afterPop
  split_ifs with h1
  · simp [h1]
  · rfl

/-- The indices restart at 0 when the pop empties the buffer; otherwise only `tail` moves on. -/
theorem afterPop_indices (c : Nat) (b : RingBuf) :
    if b.count = 1 then (afterPop c b).head = 0 ∧ (afterPop c b).tail = 0
    else (afterPop c b).head = b.head ∧ (afterPop c b).tail = (b.tail + 1) % c := by
  unfold afterPop
  split_ifs <;> exact ⟨rfl, rfl⟩

/-- Settles O13: with room, the push answers `pushed`, whose slots, invariant and contents the laws of the store and of
the buffer give. -/
theorem pushAppendsOrReportsFull : Obligations.PushAppendsOrReportsFull := by
  unfold Obligations.PushAppendsOrReportsFull
  intro c b v h
  split_ifs with hc
  · exact if_pos hc
  · exact ⟨pushed c b v, ringPush_eq_pushed v h hc, ringWf_pushed v h hc, rfl, rfl, rfl,
      storeRead_storeWrite_same _ _ _, fun _ ha => storeRead_storeWrite_other _ _ ha, contents_pushed v h hc⟩

/-- Settles O14: a buffer that holds a byte has its oldest slot written, so the pop answers that byte and `afterPop`. -/
theorem popTakesOldest : Obligations.PopTakesOldest := by
  unfold Obligations.PopTakesOldest
  intro c b h
  by_cases h0 : b.count = 0
  · rw [if_pos h0]
    exact if_pos h0
  · rw [if_neg h0]
    have hpos : 0 < b.count := Nat.pos_of_ne_zero h0
    obtain ⟨v, hv, hp⟩ := ringPop_eq_afterPop h hpos
    exact ⟨v, afterPop c b, hp, ringWf_afterPop h hpos, contents_afterPop h hpos hv, hv, afterPop_data c b,
      afterPop_count c b, afterPop_indices c b⟩

end Sys2Proof.Proofs

namespace Sys2Proof.Proofs

open Sys2Proof.Machine Sys2Proof.Safety Sys2Proof.Laws

/-- An enabled operation whose body answers a state answers that state. -/
theorem exec_eq_next_of_ok {i : Instr} {s u : State} (hf : s.fault = none) (hen : opEnabled i s = true)
    (hok : opBody i s = .ok u) : exec i s = .next u := by
  rw [exec_eq_performStep, hok, performStep_ok hf hen]

/-! ### The serial channel (41_serial_channel.md R89, R91) -/

/-- Serial arrival may touch the timer when no stop is pending, or where the parameter overrides it (R89). -/
theorem rxGate_iff (s : State) :
    rxGate s = true ↔ s.stopPending = false ∨ s.cfg.rxTimerOverridesStopPoll = true := by
  simp [rxGate]

/-- Settles O17: `serRxBody_cases` gives `rxState` of the old buffer when OUT is full and of the pushed one otherwise;
on a well-formed OUT with room the push raises no fault. -/
theorem serRxResult : Obligations.SerRxResult := by
  unfold Obligations.SerRxResult
  intro b s hf hcrit hwf
  have hen : opEnabled (.serRx b) s = true := (irqOpen_iff s).2 hcrit
  simp only [← rxGate_iff]
  obtain ⟨hfull, hbody⟩ | ⟨hroom, -, hbody⟩ | ⟨-, hhead, -⟩ := serRxBody_cases b s
  · simp only [if_pos hfull]
    exact ⟨s.outBuf, rfl, exec_eq_next_of_ok hf hen hbody⟩
  · simp only [if_neg hroom]
    exact ⟨pushed s.cfg.cOut s.outBuf b, ⟨ringPush_eq_pushed b hwf hroom, contents_pushed b hwf hroom⟩,
      exec_eq_next_of_ok hf hen hbody⟩
  · exact absurd (ringWf_head_lt hwf) hhead

/-- Settles O18: on a well-formed IN that holds a byte the oldest slot is legal and written, so of the cases of
`serTxEmptyBody_cases` only the empty buffer and the popped byte are left. -/
theorem serTxEmptyResult : Obligations.SerTxEmptyResult := by
  unfold Obligations.SerTxEmptyResult
  intro s hf hcrit htxie hwf
  have hen : opEnabled .serTxEmpty s = true := (stxEnabled_iff s).2 ⟨hcrit, htxie⟩
  obtain ⟨hempty, hbody⟩ | ⟨hpos, v, hv, hbody⟩ | ⟨hpos, ⟨-, hnone, -⟩ | ⟨htail, -⟩⟩ := serTxEmptyBody_cases s
  · rw [if_pos hempty]
    exact exec_eq_next_of_ok hf hen hbody
  · rw [if_neg hpos.ne']
    exact ⟨v, contents_afterPop hwf hpos hv, exec_eq_next_of_ok hf hen hbody⟩
  · obtain ⟨v, hv⟩ := ringWf_tail_written hwf hpos
    simp [hnone] at hv
  · exact absurd hwf.tailLt htail

end Sys2Proof.Proofs

namespace Sys2Proof.Proofs

open Sys2Proof.Machine Sys2Proof.Safety Sys2Proof.Laws

/-! ### The master's two endings and its transmission (42_bus_master.md R94, R95, R99) -/

/-- The machine's `Abort` is the effect R99 spells out. -/
theorem abort_eq_afterAbort (s : State) (t : Nat) : abort s t = afterAbort s t := by
  rw [abort_eq]
  rfl

/-- The machine's `EndOfData` is the effect R95 spells out. -/
theorem endOfData_eq_afterEndOfData (s : State) : endOfData s = afterEndOfData s := by
  rw [endOfData_eq]
  rfl

/-- With OUT empty there is nothing to transmit: the transaction ends. -/
theorem transmitTail_of_empty {s : State} (h0 : s.outBuf.count = 0) : transmitTail s = .ok (afterEndOfData s) := by
  obtain ⟨-, ht⟩ | ⟨hpos, -⟩ | ⟨hpos, -⟩ := transmitTail_cases (s := s) rfl
  · rw [ht, endOfData_eq_afterEndOfData]
  · exact absurd h0 hpos.ne'
  · exact absurd h0 hpos.ne'

/-- With a byte in a well-formed OUT the oldest one is transmitted, and a pop would leave the rest. -/
theorem transmitTail_of_pos {s : State} (hwf : RingWf s.cfg.cOut s.outBuf) (hpos : 0 < s.outBuf.count) :
    ∃ v, contents s.cfg.cOut s.outBuf = v :: contents s.cfg.cOut (afterPop s.cfg.cOut s.outBuf) ∧
      transmitTail s = .ok (emitBus s .contAck (some v)) := by
  obtain ⟨h0, -⟩ | ⟨-, v, hv, ht⟩ | ⟨-, ⟨-, hnone, -⟩ | ⟨htail, -⟩⟩ := transmitTail_cases (s := s) rfl
  · exact absurd h0 hpos.ne'
  · exact ⟨v, contents_afterPop hwf hpos hv, ht⟩
  · obtain ⟨v, hv⟩ := ringWf_tail_written hwf hpos
    simp [hnone] at hv
  · exact absurd hwf.tailLt htail

/-- DATA_ACK with OUT empty ends the transaction. -/
theorem dataAckBody_of_empty {s : State} (h0 : s.outBuf.count = 0) : dataAckBody s = .ok (afterEndOfData s) := by
  obtain ⟨-, hb⟩ | ⟨hpos, -⟩ | ⟨hpos, -⟩ := dataAckBody_cases s
  · rw [hb, endOfData_eq_afterEndOfData]
  · exact absurd h0 hpos.ne'
  · exact absurd h0 hpos.ne'

/-- DATA_ACK with a byte in a well-formed OUT pops it and goes on from what is left. -/
theorem dataAckBody_of_pos {s : State} (hwf : RingWf s.cfg.cOut s.outBuf) (hpos : 0 < s.outBuf.count) :
    dataAckBody s = transmitTail { s with outBuf := afterPop s.cfg.cOut s.outBuf } := by
  obtain ⟨v, -, hp⟩ := ringPop_eq_afterPop hwf hpos
  rw [dataAckBody, hp]

/-- A well-formed buffer with no byte counted has no contents. -/
theorem contents_eq_nil {c : Nat} {b : RingBuf} (h : RingWf c b) (h0 : b.count = 0) : contents c b = [] :=
  List.length_eq_zero_iff.1 ((contents_length h).trans h0)

/-! ### The master's events (R93-R98) -/

/-- Settles O19: the body always answers, and its address byte is `slaW`. -/
theorem startSentResult : Obligations.StartSentResult := by
  unfold Obligations.StartSentResult
  intro s hf hcrit
  exact exec_eq_next_of_ok hf ((irqOpen_iff s).2 hcrit) rfl

/-- Settles O20: ADDR_ACK is the transmission of the tail byte, and its byte heads the contents. -/
theorem addrAckResult : Obligations.AddrAckResult := by
  unfold Obligations.AddrAckResult
  intro s hf hcrit hwf
  have hen : opEnabled .addrAck s = true := (irqOpen_iff s).2 hcrit
  split_ifs with h0
  · exact exec_eq_next_of_ok hf hen (transmitTail_of_empty h0)
  · obtain ⟨v, hv, ht⟩ := transmitTail_of_pos hwf (Nat.pos_of_ne_zero h0)
    exact ⟨v, by rw [hv, List.head?_cons], exec_eq_next_of_ok hf hen ht⟩

/-- Settles O21: with a byte in OUT, DATA_ACK transmits from the popped buffer, which is well-formed again and holds one
byte less; so it is empty after the last byte, and otherwise its own oldest byte is sent. -/
theorem dataAckResult : Obligations.DataAckResult := by
  unfold Obligations.DataAckResult
  intro s hf hcrit hwf
  have hen : opEnabled .dataAck s = true := (irqOpen_iff s).2 hcrit
  split_ifs with h0 h1
  · exact exec_eq_next_of_ok hf hen (dataAckBody_of_empty h0)
  all_goals
    have hpos : 0 < s.outBuf.count := Nat.pos_of_ne_zero h0
    have hbody := dataAckBody_of_pos hwf hpos
    have hwf' := ringWf_afterPop hwf hpos
    have hcount := afterPop_count s.cfg.cOut s.outBuf
  · have hempty : (afterPop s.cfg.cOut s.outBuf).count = 0 := by omega
    exact ⟨exec_eq_next_of_ok hf hen (hbody.trans (transmitTail_of_empty hempty)), contents_eq_nil hwf' hempty⟩
  · obtain ⟨v, hv, -⟩ := transmitTail_of_pos hwf hpos
    obtain ⟨w, hw, ht⟩ := transmitTail_of_pos (s := { s with outBuf := afterPop s.cfg.cOut s.outBuf }) hwf'
      (by simp only; omega)
    exact ⟨v, w, _, by rw [hv, hw], hw, exec_eq_next_of_ok hf hen (hbody.trans ht)⟩

/-- Settles O22: the three events have one body, `Abort(T_BACKOFF)`, which always answers. -/
theorem abortEventsResult : Obligations.AbortEventsResult := by
  unfold Obligations.AbortEventsResult
  intro s hf hcrit
  have hopen : irqOpen s = true := (irqOpen_iff s).2 hcrit
  rw [← abort_eq_afterAbort]
  exact ⟨exec_eq_next_of_ok hf hopen rfl, exec_eq_next_of_ok hf hopen rfl, exec_eq_next_of_ok hf hopen rfl⟩

end Sys2Proof.Proofs

namespace Sys2Proof.Proofs

open Sys2Proof.Machine Sys2Proof.Safety Sys2Proof.Laws

/-! ### The effects of the slave's events, field by field (43_bus_slave.md R102, R107) -/

/-- SLA_MATCH_ARB records the intent, when OUT holds a byte, and then aborts. -/
theorem slaMatchArbState_eq (s : State) :
    slaMatchArbState s =
      afterAbort { s with readyToSend := if 0 < s.outBuf.count then true else s.readyToSend } s.cfg.tShort := by
  unfold slaMatchArbState
  rw [abort_eq_afterAbort]
  split_ifs <;> rfl

/-- SLV_DATA_NACK writes `role` and drives CONTINUE; its byte is not used. -/
theorem slvDataNackState_eq (d : Byte) (s : State) :
    slvDataNackState d s =
      { s with role := if s.role = .blockedReceiving then .receiving else s.role,
               outputs := s.outputs ++ [.bus .contAck none] } := by
  unfold slvDataNackState
  split_ifs <;> rfl

/-! ### The slave's events and recovery (43_bus_slave.md R101-R110) -/

/-- Settles O25: `slvDataAckBody_cases` gives the fast path, the overflow, and the push into `pushed`; on a well-formed IN
with room the push raises no fault. -/
theorem slvDataAckResult : Obligations.SlvDataAckResult := by
  unfold Obligations.SlvDataAckResult
  intro d s hf hcrit hwf
  have hen : opEnabled (.slvDataAck d) s = true := (irqOpen_iff s).2 hcrit
  obtain ⟨hfast, hbody⟩ | ⟨hslow, hfull, hbody⟩ | ⟨hslow, hroom, -, hbody⟩ | ⟨-, hhead, -⟩ :=
    slvDataAckBody_cases d s
  · rw [if_pos hfast]
    exact exec_eq_next_of_ok hf hen hbody
  · rw [if_neg hslow, if_pos hfull]
    exact exec_eq_next_of_ok hf hen hbody
  · rw [if_neg hslow, if_neg hroom]
    exact ⟨pushed s.cfg.cIn s.inBuf d, ringPush_eq_pushed d hwf hroom, contents_pushed d hwf hroom,
      exec_eq_next_of_ok hf hen hbody⟩
  · exact absurd (ringWf_head_lt hwf) hhead

/-- Settles O23: the body always answers, and `slaMatchState` branches on `role` and on a full IN as R101 does. -/
theorem slaMatchResult : Obligations.SlaMatchResult := by
  unfold Obligations.SlaMatchResult
  intro s hf hcrit
  exact exec_eq_next_of_ok hf ((irqOpen_iff s).2 hcrit) rfl

/-- Settles O24: the body always answers, with the state `slaMatchArbState_eq` spells out. -/
theorem slaMatchArbResult : Obligations.SlaMatchArbResult := by
  unfold Obligations.SlaMatchArbResult
  intro s hf hcrit
  rw [← slaMatchArbState_eq]
  exact exec_eq_next_of_ok hf ((irqOpen_iff s).2 hcrit) rfl

/-- Settles O26: the body always answers, with the state `slvDataNackState_eq` spells out. -/
theorem slvDataNackResult : Obligations.SlvDataNackResult := by
  unfold Obligations.SlvDataNackResult
  intro d s hf hcrit
  rw [← slvDataNackState_eq d]
  exact exec_eq_next_of_ok hf ((irqOpen_iff s).2 hcrit) rfl

/-- Settles O27: the body always answers, and it writes `role` without testing it. -/
theorem stopRxResult : Obligations.StopRxResult := by
  unfold Obligations.StopRxResult
  intro s hf hcrit
  exact exec_eq_next_of_ok hf ((irqOpen_iff s).2 hcrit) rfl

/-- Settles O28: the body of every code is `Abort(T_SHORT)`, which always answers. -/
theorem busDefaultResult : Obligations.BusDefaultResult := by
  unfold Obligations.BusDefaultResult
  intro code s hf hcrit
  rw [← abort_eq_afterAbort]
  exact exec_eq_next_of_ok hf ((irqOpen_iff s).2 hcrit) rfl

end Sys2Proof.Proofs

namespace Sys2Proof.Proofs

open Sys2Proof.Machine Sys2Proof.Laws

/-- An enabled operation whose body raises a fault records it and keeps nothing else (R12). -/
theorem exec_eq_next_recordFault_of_error {i : Instr} {s : State} {k : Fault} (hf : s.fault = none)
    (hen : opEnabled i s = true) (herr : opBody i s = .error k) : exec i s = .next (recordFault s k) := by
  rw [exec_eq_performStep, herr, performStep_error hf hen]

/-! ### The retry timer (44_retry_timer.md R113, R116) -/

/-- Settles O30: `timerExpireBody_cases` gives R116's four branches in the order of the statement; only the one at
MAX_STOP_POLLS raises a fault, so there the cleared `tmr_running` is not kept. -/
theorem timerExpireResult : Obligations.TimerExpireResult := by
  unfold Obligations.TimerExpireResult
  intro busy s hf hcrit hrun hdue
  have hen : opEnabled (.timerExpire busy) s = true := (expireEnabled_iff s).2 ⟨hcrit, hrun, hdue⟩
  simp only [← pollsExhausted_iff, ← bumpPolls_eq]
  obtain ⟨hidle, hbody⟩ | ⟨hpend, hfree, hbody⟩ | ⟨hpend, hbusy, hmax, hbody⟩ | ⟨hpend, hbusy, hmax, hbody⟩ :=
    timerExpireBody_cases busy s
  · rw [if_pos hidle]
    exact exec_eq_next_of_ok hf hen hbody
  · rw [if_neg (by simp [hpend]), if_pos hfree]
    exact exec_eq_next_of_ok hf hen hbody
  · rw [if_neg (by simp [hpend]), if_neg (by simp [hbusy]), if_pos hmax]
    exact exec_eq_next_recordFault_of_error hf hen hbody
  · rw [if_neg (by simp [hpend]), if_neg (by simp [hbusy]), if_neg (by simp [hmax])]
    exact exec_eq_next_of_ok hf hen hbody

/-- Settles O29: the tick's body always answers, and it writes `tmr_remaining` alone. -/
theorem timerTickResult : Obligations.TimerTickResult := by
  unfold Obligations.TimerTickResult
  intro s hf hcrit hrun hpos
  exact exec_eq_next_of_ok hf ((tickEnabled_iff s).2 ⟨hcrit, hrun, hpos⟩) rfl

end Sys2Proof.Proofs

namespace Sys2Proof.Proofs

open Sys2Proof.Machine Sys2Proof.Laws

/-! ### What the Dispatcher's bodies answer (45_host_interface.md R125, R126) -/

/-- READ_CLEAR_ERR tests `err` first, but leaves 0x00 on both paths. -/
theorem readClearErrState_eq (s : State) :
    readClearErrState s = { s with err := 0x00, outputs := s.outputs ++ [.ret s.err] } := by
  unfold readClearErrState
  split_ifs with herr
  · rfl
  · rw [← not_not.1 herr]
    rfl

/-- Everything BEGIN_SEND can answer (R126). -/
theorem beginSendBody_cases (s : State) :
    ((s.role = .stopped ∧ s.readyToSend = true) ∧ 0 < s.outBuf.count ∧ beginSendBody s = .ok
      { s with readyToSend := false, role := .sending, outputs := s.outputs ++ [.bus .sendStart none] }) ∨
    ((s.role = .stopped ∧ s.readyToSend = true) ∧ ¬ 0 < s.outBuf.count ∧
      beginSendBody s = .ok { s with readyToSend := false }) ∨
    (¬ (s.role = .stopped ∧ s.readyToSend = true) ∧ beginSendBody s = .error .hostContract) := by
  unfold beginSendBody
  split_ifs with hpre hout
  · exact .inl ⟨hpre, hout, rfl⟩
  · exact .inr (.inl ⟨hpre, hout, rfl⟩)
  · exact .inr (.inr ⟨hpre, rfl⟩)

/-! ### The Dispatcher's operations (R122-R130), enabled at all times (R121) -/

/-- Settles O34: `beginSendBody_cases` gives START, the cleared intent alone, and HostContract, in the order of the
statement. -/
theorem beginSendResult : Obligations.BeginSendResult := by
  unfold Obligations.BeginSendResult
  intro s hf
  obtain ⟨hpre, hout, hbody⟩ | ⟨hpre, hout, hbody⟩ | ⟨hpre, hbody⟩ := beginSendBody_cases s
  · rw [if_pos hpre, if_pos hout]
    exact exec_eq_next_of_ok hf rfl hbody
  · rw [if_pos hpre, if_neg hout]
    exact exec_eq_next_of_ok hf rfl hbody
  · rw [if_neg hpre]
    exact exec_eq_next_recordFault_of_error hf rfl hbody

/-- Settles O31: each body returns one value; that of the role and that of the intent are read off per role and per
flag. -/
theorem hostReadResults : Obligations.HostReadResults := by
  unfold Obligations.HostReadResults
  intro s hf
  refine ⟨?_, ?_, exec_eq_next_of_ok hf rfl rfl⟩
  · have hread : exec .readRole s = .next (hostReturn s (roleByte s.role)) := exec_eq_next_of_ok hf rfl rfl
    rw [hread, hostReturn]
    cases s.role <;> rfl
  · have hread : exec .readReady s = .next (hostReturn s (flagByte s.readyToSend)) := exec_eq_next_of_ok hf rfl rfl
    rw [hread, hostReturn]
    cases s.readyToSend <;> rfl

/-- Settles O32: the body always answers, and it writes `ready_to_send` alone. -/
theorem clearReadyResult : Obligations.ClearReadyResult := by
  unfold Obligations.ClearReadyResult
  intro s hf
  exact exec_eq_next_of_ok hf rfl rfl

/-- Settles O33: the body always answers, with the state `readClearErrState_eq` spells out. -/
theorem readClearErrResult : Obligations.ReadClearErrResult := by
  unfold Obligations.ReadClearErrResult
  intro s hf
  rw [← readClearErrState_eq]
  exact exec_eq_next_of_ok hf rfl rfl

/-- Settles O35: each body raises its fault at its end of the range, and elsewhere steps `crit_depth` without a wrap. -/
theorem criticalRegionResults : Obligations.CriticalRegionResults := by
  unfold Obligations.CriticalRegionResults
  intro s hf
  constructor
  · split_ifs with hmax
    · exact exec_eq_next_recordFault_of_error hf rfl (if_pos hmax)
    · exact ⟨_, exec_eq_next_of_ok hf rfl (if_neg hmax), rfl, BitVec.toNat_add_of_lt (by bv_omega)⟩
  · split_ifs with hzero
    · exact exec_eq_next_recordFault_of_error hf rfl (if_pos hzero)
    · exact ⟨_, exec_eq_next_of_ok hf rfl (if_neg hzero), rfl, BitVec.toNat_sub_of_le (by bv_omega)⟩

end Sys2Proof.Proofs

namespace Sys2Proof.Proofs

open Sys2Proof.Machine Sys2Proof.Laws

/-! ### A recorded fault is final (60_exceptions.md R147) -/

/-- No operation goes on from a faulted state, RESET included. -/
theorem exec_faulted {s : State} {k : Fault} (i : Instr) (hf : s.fault = some k) : exec i s = .fault k := by
  rw [exec_eq_performStep]
  exact performStep_faulted _ _ hf

/-- No step goes on from a faulted state: taking a word from the inbox leaves the recorded fault in place, so an idle step,
an operation and a refused word all meet it. -/
theorem step_faulted {s : State} {k : Fault} (hf : s.fault = some k) : step s = .fault k := by
  obtain ⟨-, hstep⟩ | ⟨w, rest, -, ⟨i, -, hstep⟩ | ⟨e, -, hstep⟩⟩ := step_cases s
  · exact hstep.trans (performStep_faulted _ _ hf)
  · exact hstep.trans (exec_faulted i hf)
  · exact hstep.trans (performStep_faulted _ _ hf)

/-- Settles O9: every operation, and every case of `step_cases`, is one `performStep`, which answers the recorded fault. -/
theorem faultedStateTakesNoStep : Obligations.FaultedStateTakesNoStep := by
  unfold Obligations.FaultedStateTakesNoStep
  intro s k hf
  exact ⟨step_faulted hf, fun i => exec_faulted i hf⟩

end Sys2Proof.Proofs

namespace Sys2Proof.Proofs

open Sys2Proof.Machine Sys2Proof.Safety Sys2Proof.Laws

/-! ### rxState, field by field (R89) -/

@[simp] theorem rxState_role (s : State) (q : RingBuf) (e : Byte) : (rxState s q e).role = s.role := rfl
@[simp] theorem rxState_outBuf (s : State) (q : RingBuf) (e : Byte) : (rxState s q e).outBuf = q := rfl
@[simp] theorem rxState_inBuf (s : State) (q : RingBuf) (e : Byte) : (rxState s q e).inBuf = s.inBuf := rfl
@[simp] theorem rxState_readyToSend (s : State) (q : RingBuf) (e : Byte) :
    (rxState s q e).readyToSend =
      if s.cfg.threshold ≤ q.count then true else s.readyToSend := rfl
@[simp] theorem rxState_stopPending (s : State) (q : RingBuf) (e : Byte) :
    (rxState s q e).stopPending =
      s.stopPending := rfl
@[simp] theorem rxState_err (s : State) (q : RingBuf) (e : Byte) : (rxState s q e).err = e := rfl
@[simp] theorem rxState_txIdle (s : State) (q : RingBuf) (e : Byte) : (rxState s q e).txIdle = s.txIdle := rfl
@[simp] theorem rxState_txie (s : State) (q : RingBuf) (e : Byte) : (rxState s q e).txie = s.txie := rfl
@[simp] theorem rxState_tmrRunning (s : State) (q : RingBuf) (e : Byte) :
    (rxState s q e).tmrRunning =
      if rxGate s then (if s.cfg.threshold ≤ q.count then false else true) else s.tmrRunning := rfl
@[simp] theorem rxState_tmrRemaining (s : State) (q : RingBuf) (e : Byte) :
    (rxState s q e).tmrRemaining =
      if rxGate s then (if s.cfg.threshold ≤ q.count then 0 else s.cfg.tIdle) else s.tmrRemaining := rfl
@[simp] theorem rxState_stopPolls (s : State) (q : RingBuf) (e : Byte) :
    (rxState s q e).stopPolls =
      s.stopPolls := rfl
@[simp] theorem rxState_critDepth (s : State) (q : RingBuf) (e : Byte) :
    (rxState s q e).critDepth =
      s.critDepth := rfl
@[simp] theorem rxState_fault (s : State) (q : RingBuf) (e : Byte) : (rxState s q e).fault = s.fault := rfl
@[simp] theorem rxState_cfg (s : State) (q : RingBuf) (e : Byte) : (rxState s q e).cfg = s.cfg := rfl
@[simp] theorem rxState_inbox (s : State) (q : RingBuf) (e : Byte) : (rxState s q e).inbox = s.inbox := rfl
@[simp] theorem rxState_outputs (s : State) (q : RingBuf) (e : Byte) : (rxState s q e).outputs = s.outputs := rfl

/-! ### resetState, field by field (R153) -/

@[simp] theorem resetState_role (s : State) : (resetState s).role = .stopped := rfl
@[simp] theorem resetState_outBuf (s : State) : (resetState s).outBuf = resetRing := rfl
@[simp] theorem resetState_inBuf (s : State) : (resetState s).inBuf = resetRing := rfl
@[simp] theorem resetState_readyToSend (s : State) : (resetState s).readyToSend = false := rfl
@[simp] theorem resetState_stopPending (s : State) : (resetState s).stopPending = false := rfl
@[simp] theorem resetState_err (s : State) : (resetState s).err = 0x00 := rfl
@[simp] theorem resetState_txIdle (s : State) : (resetState s).txIdle = true := rfl
@[simp] theorem resetState_txie (s : State) : (resetState s).txie = false := rfl
@[simp] theorem resetState_tmrRunning (s : State) : (resetState s).tmrRunning = false := rfl
@[simp] theorem resetState_tmrRemaining (s : State) : (resetState s).tmrRemaining = 0 := rfl
@[simp] theorem resetState_stopPolls (s : State) : (resetState s).stopPolls = 0 := rfl
@[simp] theorem resetState_critDepth (s : State) : (resetState s).critDepth = 0 := rfl
@[simp] theorem resetState_fault (s : State) : (resetState s).fault = s.fault := rfl
@[simp] theorem resetState_cfg (s : State) : (resetState s).cfg = s.cfg := rfl
@[simp] theorem resetState_inbox (s : State) : (resetState s).inbox = s.inbox := rfl
@[simp] theorem resetState_outputs (s : State) : (resetState s).outputs = s.outputs := rfl

/-! ### The states an operation's body can answer

`Effect s i t` lists them once, one constructor per outcome that raises no fault; `opBody_effect` holds the list to the
model. What every operation keeps or changes is then read off by cases on `Effect`. -/

/-- `t` is a state that the body of operation `i` answers at `s`. -/
inductive Effect (s : State) : Instr → State → Prop where
  | startSent : Effect s .startSent (emitBus s .contAck (some (slaW s.cfg)))
  | addrAckByte (v : Byte) (hpos : 0 < s.outBuf.count) (hv : storeRead s.outBuf.data s.outBuf.tail = some v) :
      Effect s .addrAck (emitBus s .contAck (some v))
  | addrAckEnd (h0 : s.outBuf.count = 0) : Effect s .addrAck (endOfData s)
  | addrNack : Effect s .addrNack (abort s s.cfg.tBackoff)
  | dataAckEmpty (h0 : s.outBuf.count = 0) : Effect s .dataAck (endOfData s)
  | dataAckLast (v : Byte) (h1 : s.outBuf.count = 1) (hv : storeRead s.outBuf.data s.outBuf.tail = some v) :
      Effect s .dataAck (endOfData { s with outBuf := afterPop s.cfg.cOut s.outBuf })
  | dataAckByte (v w : Byte) (hmore : 1 < s.outBuf.count) (hv : storeRead s.outBuf.data s.outBuf.tail = some v)
      (hw : storeRead s.outBuf.data (afterPop s.cfg.cOut s.outBuf).tail = some w) :
      Effect s .dataAck (emitBus { s with outBuf := afterPop s.cfg.cOut s.outBuf } .contAck (some w))
  | dataNack : Effect s .dataNack (abort s s.cfg.tBackoff)
  | arbLost : Effect s .arbLost (abort s s.cfg.tBackoff)
  | slaMatchRefused (hrole : s.role ≠ .stopped) : Effect s .slaMatch (emitBus s .withholdAck none)
  | slaMatchFull (hrole : s.role = .stopped) (hfull : s.inBuf.count = s.cfg.cIn) :
      Effect s .slaMatch (emitBus (setRole s .blockedReceiving) .withholdAck none)
  | slaMatchOpen (hrole : s.role = .stopped) (hroom : s.inBuf.count ≠ s.cfg.cIn) :
      Effect s .slaMatch (emitBus (setRole s .receiving) .contAck none)
  | slaMatchArbIntent (hpos : 0 < s.outBuf.count) : Effect s .slaMatchArb (abort (raiseReady s) s.cfg.tShort)
  | slaMatchArbEmpty (h0 : s.outBuf.count = 0) : Effect s .slaMatchArb (abort s s.cfg.tShort)
  | slvDataAckFast (d : Byte) (h0 : s.inBuf.count = 0) (hidle : s.txIdle = true) :
      Effect s (.slvDataAck d)
        { s with txIdle := false, txie := true, outputs := s.outputs ++ [.ser d, .bus .contAck none] }
  | slvDataAckDropped (d : Byte) (hslow : ¬ (s.inBuf.count = 0 ∧ s.txIdle = true)) (hfull : s.inBuf.count = s.cfg.cIn) :
      Effect s (.slvDataAck d) (emitBus (setRole (setInOvf s) .blockedReceiving) .withholdAck none)
  | slvDataAckFills (d : Byte) (hslow : ¬ (s.inBuf.count = 0 ∧ s.txIdle = true))
      (hroom : s.inBuf.count + 1 = s.cfg.cIn) :
      Effect s (.slvDataAck d)
        (emitBus (setRole { s with inBuf := pushed s.cfg.cIn s.inBuf d } .blockedReceiving) .withholdAck none)
  | slvDataAckStored (d : Byte) (hslow : ¬ (s.inBuf.count = 0 ∧ s.txIdle = true)) (hroom : s.inBuf.count ≠ s.cfg.cIn) :
      Effect s (.slvDataAck d) (emitBus { s with inBuf := pushed s.cfg.cIn s.inBuf d } .contAck none)
  | slvDataNackDrained (d : Byte) (hrole : s.role = .blockedReceiving) :
      Effect s (.slvDataNack d) (emitBus (setRole s .receiving) .contAck none)
  | slvDataNackKept (d : Byte) (hrole : s.role ≠ .blockedReceiving) :
      Effect s (.slvDataNack d) (emitBus s .contAck none)
  | stopRx : Effect s .stopRx (emitBus (setRole s .stopped) .contAck none)
  | busDefault (code : Byte) : Effect s (.busDefault code) (abort s s.cfg.tShort)
  | serRxDropped (b : Byte) (hfull : s.outBuf.count = s.cfg.cOut) :
      Effect s (.serRx b) (rxState s s.outBuf (s.err ||| 0x02))
  | serRxStored (b : Byte) (hroom : s.outBuf.count ≠ s.cfg.cOut) :
      Effect s (.serRx b) (rxState s (pushed s.cfg.cOut s.outBuf b) s.err)
  | serTxEmptyByte (v : Byte) (hpos : 0 < s.inBuf.count) (hv : storeRead s.inBuf.data s.inBuf.tail = some v) :
      Effect s .serTxEmpty (emitSer { s with inBuf := afterPop s.cfg.cIn s.inBuf } v)
  | serTxEmptyIdle (h0 : s.inBuf.count = 0) : Effect s .serTxEmpty { s with txie := false, txIdle := true }
  | timerTick : Effect s .timerTick { s with tmrRemaining := s.tmrRemaining - 1 }
  | timerExpireIntent (busy : Bool) (hidle : s.stopPending = false) :
      Effect s (.timerExpire busy) { s with tmrRunning := false, readyToSend := true }
  | timerExpireConfirmed (hpend : s.stopPending = true) :
      Effect s (.timerExpire false)
        { s with tmrRunning := false, stopPending := false, stopPolls := 0, role := .stopped }
  | timerExpireRearmed (hpend : s.stopPending = true) (hpolls : pollsExhausted s.cfg s.stopPolls = false) :
      Effect s (.timerExpire true)
        { s with tmrRunning := true, tmrRemaining := s.cfg.tStopPoll, stopPolls := bumpPolls s.stopPolls }
  | readRole : Effect s .readRole (hostReturn s (roleByte s.role))
  | readReady : Effect s .readReady (hostReturn s (flagByte s.readyToSend))
  | clearReady : Effect s .clearReady (dropReady s)
  | readErr : Effect s .readErr (hostReturn s s.err)
  | readClearErr : Effect s .readClearErr (hostReturn { s with err := 0x00 } s.err)
  | beginSendStarts (hrole : s.role = .stopped) (hready : s.readyToSend = true) (hpos : 0 < s.outBuf.count) :
      Effect s .beginSend (emitBus (setRole (dropReady s) .sending) .sendStart none)
  | beginSendEmpty (hrole : s.role = .stopped) (hready : s.readyToSend = true) (h0 : s.outBuf.count = 0) :
      Effect s .beginSend (dropReady s)
  | critEnter (hdepth : s.critDepth ≠ 0xFF) : Effect s .critEnter { s with critDepth := s.critDepth + 1 }
  | critExit (hdepth : s.critDepth ≠ 0x00) : Effect s .critExit { s with critDepth := s.critDepth - 1 }
  | reset : Effect s .reset (resetState s)

/-! ### The list is the model's -/

theorem dataAckBody_effect {s t : State} (h : dataAckBody s = .ok t) : Effect s .dataAck t := by
  obtain ⟨h0, hr⟩ | ⟨hpos, v, hv, hr⟩ | ⟨-, ⟨-, -, hr⟩ | ⟨-, hr⟩⟩ := dataAckBody_cases s <;> rw [hr] at h
  · cases h
    exact .dataAckEmpty h0
  · obtain ⟨hlast, hr'⟩ | ⟨hmore, w, hw, hr'⟩ | ⟨-, ⟨-, -, hr'⟩ | ⟨-, hr'⟩⟩ := transmitTail_cases h <;> cases hr'
    · simp only [afterPop_count] at hlast
      exact .dataAckLast v (by omega) hv
    · simp only [afterPop_count] at hmore
      exact .dataAckByte v w (by omega) hv (by simpa using hw)
  · cases h
  · cases h

theorem slaMatchState_effect (s : State) : Effect s .slaMatch (slaMatchState s) := by
  unfold slaMatchState
  split_ifs with hrole hfull
  · exact .slaMatchFull hrole hfull
  · exact .slaMatchOpen hrole hfull
  · exact .slaMatchRefused hrole

theorem slaMatchArbState_effect (s : State) : Effect s .slaMatchArb (slaMatchArbState s) := by
  unfold slaMatchArbState
  split_ifs with hpos
  · exact .slaMatchArbIntent hpos
  · exact .slaMatchArbEmpty (Nat.eq_zero_of_not_pos hpos)

theorem slvDataAckBody_effect {d : Byte} {s t : State} (h : slvDataAckBody d s = .ok t) :
    Effect s (.slvDataAck d) t := by
  obtain ⟨⟨h0, hidle⟩, hr⟩ | ⟨hslow, hfull, hr⟩ | ⟨hslow, hroom, -, hr⟩ | ⟨-, -, hr⟩ := slvDataAckBody_cases d s <;>
    rw [hr] at h <;> cases h
  · exact .slvDataAckFast d h0 hidle
  · exact .slvDataAckDropped d hslow hfull
  · split_ifs with hlast
    · exact .slvDataAckFills d hslow hlast
    · exact .slvDataAckStored d hslow hroom

theorem slvDataNackState_effect (d : Byte) (s : State) : Effect s (.slvDataNack d) (slvDataNackState d s) := by
  unfold slvDataNackState
  split_ifs with hrole
  · exact .slvDataNackDrained d hrole
  · exact .slvDataNackKept d hrole

theorem serRxBody_effect {b : Byte} {s t : State} (h : serRxBody b s = .ok t) : Effect s (.serRx b) t := by
  obtain ⟨hfull, hr⟩ | ⟨hroom, -, hr⟩ | ⟨-, -, hr⟩ := serRxBody_cases b s <;> rw [hr] at h <;> cases h
  · exact .serRxDropped b hfull
  · exact .serRxStored b hroom

theorem serTxEmptyBody_effect {s t : State} (h : serTxEmptyBody s = .ok t) : Effect s .serTxEmpty t := by
  obtain ⟨h0, hr⟩ | ⟨hpos, v, hv, hr⟩ | ⟨-, ⟨-, -, hr⟩ | ⟨-, hr⟩⟩ := serTxEmptyBody_cases s <;> rw [hr] at h <;> cases h
  · exact .serTxEmptyIdle h0
  · exact .serTxEmptyByte v hpos hv

theorem timerExpireBody_effect {busy : Bool} {s t : State} (h : timerExpireBody busy s = .ok t) :
    Effect s (.timerExpire busy) t := by
  obtain ⟨hidle, hr⟩ | ⟨hpend, rfl, hr⟩ | ⟨-, -, -, hr⟩ | ⟨hpend, rfl, hpolls, hr⟩ :=
    timerExpireBody_cases busy s <;>
    rw [hr] at h <;> cases h
  · exact .timerExpireIntent busy hidle
  · exact .timerExpireConfirmed hpend
  · exact .timerExpireRearmed hpend hpolls

theorem beginSendBody_effect {s t : State} (h : beginSendBody s = .ok t) : Effect s .beginSend t := by
  obtain ⟨⟨hrole, hready⟩, hpos, hr⟩ | ⟨⟨hrole, hready⟩, h0, hr⟩ | ⟨-, hr⟩ := beginSendBody_cases s <;>
    rw [hr] at h <;> cases h
  · exact .beginSendStarts hrole hready hpos
  · exact .beginSendEmpty hrole hready (Nat.eq_zero_of_not_pos h0)

/-- Every state a body answers is on the list. -/
theorem opBody_effect {i : Instr} {s t : State} (h : opBody i s = .ok t) : Effect s i t := by
  cases i with
  | addrAck =>
    obtain ⟨h0, hr⟩ | ⟨hpos, v, hv, hr⟩ | ⟨-, ⟨-, -, hr⟩ | ⟨-, hr⟩⟩ := transmitTail_cases h <;> cases hr
    · exact .addrAckEnd h0
    · exact .addrAckByte v hpos hv
  | dataAck => exact dataAckBody_effect h
  | slaMatch =>
    cases h
    exact slaMatchState_effect s
  | slaMatchArb =>
    cases h
    exact slaMatchArbState_effect s
  | slvDataAck d => exact slvDataAckBody_effect h
  | slvDataNack d =>
    cases h
    exact slvDataNackState_effect d s
  | serRx b => exact serRxBody_effect h
  | serTxEmpty => exact serTxEmptyBody_effect h
  | timerExpire busy => exact timerExpireBody_effect h
  | readClearErr =>
    simp only [opBody, readClearErrState_eq] at h
    cases h
    exact .readClearErr
  | beginSend => exact beginSendBody_effect h
  | critEnter =>
    simp only [opBody] at h
    split_ifs at h with hdepth
    cases h
    exact .critEnter hdepth
  | critExit =>
    simp only [opBody] at h
    split_ifs at h with hdepth
    cases h
    exact .critExit hdepth
  | startSent | addrNack | dataNack | arbLost | stopRx | busDefault | timerTick | readRole | readReady | clearReady
  | readErr | reset =>
    cases h
    constructor

/-- Every next state records a fault and nothing else, or is the body's answer. -/
theorem exec_next_cases {i : Instr} {s t : State} (h : exec i s = .next t) :
    (∃ k, t = recordFault s k) ∨ (opEnabled i s = true ∧ Effect s i t) := by
  obtain ⟨-, ⟨-, ht⟩ | ⟨hen, hok⟩ | ⟨-, k, -, ht⟩⟩ := exec_next h
  · exact .inl ⟨_, ht⟩
  · exact .inr ⟨hen, opBody_effect hok⟩
  · exact .inl ⟨k, ht⟩

/-- A next state with no fault recorded is the answer of an enabled body. -/
theorem exec_next_faultFree {i : Instr} {s t : State} (h : exec i s = .next t) (ht : t.fault = none) :
    opEnabled i s = true ∧ Effect s i t := by
  obtain ⟨k, rfl⟩ | heffect := exec_next_cases h
  · cases ht
  · exact heffect

/-! ### What no body writes -/

/-- No operation writes the configuration (log entry 3). -/
theorem Effect.cfg_eq {i : Instr} {s t : State} (h : Effect s i t) : t.cfg = s.cfg := by
  cases h <;> simp

/-- A body that answers a state leaves the fault record alone. -/
theorem Effect.fault_eq {i : Instr} {s t : State} (h : Effect s i t) : t.fault = s.fault := by
  cases h <;> simp

end Sys2Proof.Proofs

namespace Sys2Proof.Proofs

open Sys2Proof.Machine Sys2Proof.Safety Sys2Proof.Laws

/-! ### The invariant, part by part (10_state.md sections 3 and 10) -/

theorem legalCapacities_pos {c : Nat} (h : c ∈ legalCapacities) : 0 < c := by
  simp only [legalCapacities, List.mem_cons, List.not_mem_nil, or_false] at h
  omega

theorem inv_cOut_pos {s : State} (h : Inv s) : 0 < s.cfg.cOut := legalCapacities_pos h.legal.1

theorem inv_cIn_pos {s : State} (h : Inv s) : 0 < s.cfg.cIn := legalCapacities_pos h.legal.2.1

/-- A buffer as reset leaves it is well-formed at every capacity there is (R40). -/
theorem ringWf_resetRing {c : Nat} (hc : 0 < c) : RingWf c resetRing :=
  ⟨Nat.zero_le c, hc, by simp [resetRing], by simp [resetRing, storeWf], by simp [resetRing], by simp [resetRing]⟩

section

variable {i : Instr} {s t : State} (h : Effect s i t) (hs : Inv s)

include h hs

/-- R19 for OUT: only a pop, a push and RESET touch it. -/
theorem Effect.keeps_outWf : RingWf t.cfg.cOut t.outBuf := by
  have hcap := inv_cOut_pos hs
  cases h with
  | dataAckLast v h1 hv => simpa using ringWf_afterPop hs.outWf (by omega)
  | dataAckByte v w hmore hv => simpa using ringWf_afterPop hs.outWf (by omega)
  | serRxStored b hroom => exact ringWf_pushed b hs.outWf hroom
  | reset => exact ringWf_resetRing hcap
  | _ => simpa using hs.outWf

/-- R19 for IN. -/
theorem Effect.keeps_inWf : RingWf t.cfg.cIn t.inBuf := by
  have hcap := inv_cIn_pos hs
  cases h with
  | slvDataAckFills d hslow hroom => simpa using ringWf_pushed d hs.inWf (by omega)
  | slvDataAckStored d hslow hroom => simpa using ringWf_pushed d hs.inWf hroom
  | serTxEmptyByte v hpos hv => simpa using ringWf_afterPop hs.inWf hpos
  | reset => exact ringWf_resetRing hcap
  | _ => simpa using hs.inWf

/-- R35: the overflow bits lie below err[7:2]. -/
theorem Effect.keeps_errHigh : t.err &&& 0xFC = 0 := by
  have hor : ∀ bit : Byte, bit &&& 0xFC = 0 → (s.err ||| bit) &&& 0xFC = 0 := by
    intro bit hbit
    rw [BitVec.and_or_distrib_right, hs.errHigh, hbit]
    rfl
  cases h with
  | slvDataAckDropped d hslow hfull => exact hor 0x01 (by decide)
  | serRxDropped b hfull => exact hor 0x02 (by decide)
  | readClearErr | reset => simp
  | _ => simpa using hs.errHigh

/-- R32: `txie` and `tx_idle` are written together. -/
theorem Effect.keeps_txieNot : t.txie = !t.txIdle := by
  cases h with
  | slvDataAckFast | serTxEmptyIdle | reset => rfl
  | _ => simpa using hs.txieNot

/-- R33: taking the last byte of OUT raises `stop_pending`, and a confirmed stop leaves Sending. -/
theorem Effect.keeps_sendingHasByte (hrole : t.role = .sending) (hpend : t.stopPending = false) :
    0 < t.outBuf.count := by
  cases h with
  | addrAckEnd | dataAckEmpty | dataAckLast => simp at hpend
  | dataAckByte v w hmore hv =>
    simp only [emitBus_outBuf, afterPop_count]
    omega
  | beginSendStarts _ _ hpos => exact hpos
  | serRxStored => exact Nat.succ_pos _
  | addrNack | dataNack | arbLost | slaMatchFull | slaMatchOpen | slaMatchArbIntent | slaMatchArbEmpty
  | slvDataAckDropped | slvDataAckFills | slvDataNackDrained | stopRx | busDefault => simp at hrole
  | timerExpireConfirmed | reset => cases hrole
  | _ => exact hs.sendingHasByte hrole hpend

/-- R34: with the default gate nothing stops the poll before the expiry that confirms the stop. -/
theorem Effect.keeps_stopPolled (hgate : t.cfg.rxTimerOverridesStopPoll = false) (hpend : t.stopPending = true) :
    t.tmrRunning = true := by
  rw [h.cfg_eq] at hgate
  cases h with
  | addrAckEnd | dataAckEmpty | dataAckLast | addrNack | dataNack | arbLost | slaMatchArbIntent | slaMatchArbEmpty
  | busDefault => simp
  | serRxDropped | serRxStored =>
    have hclosed : rxGate s = false := by
      simpa [rxGate, hgate] using hpend
    simpa [hclosed] using hs.stopPolled hgate hpend
  | timerExpireIntent busy hidle => simp [hidle] at hpend
  | timerExpireConfirmed | reset => cases hpend
  | timerExpireRearmed => rfl
  | _ => exact hs.stopPolled hgate hpend

/-- R26: a countdown is armed only with a legal tick count, and otherwise falls. -/
theorem Effect.keeps_timerFits : t.tmrRemaining < 2 ^ t.cfg.tmrWidth := by
  obtain ⟨-, -, -, ⟨-, hidle⟩, ⟨-, hpoll⟩, ⟨-, hbackoff⟩, ⟨-, hshort⟩, -⟩ := hs.legal
  have hfits := hs.timerFits
  have hzero : 0 < 2 ^ s.cfg.tmrWidth := Nat.two_pow_pos _
  have harm : ∀ {n}, n < 2 ^ s.cfg.tmrWidth →
      (if s.tmrRunning = true then s.tmrRemaining else n) < 2 ^ s.cfg.tmrWidth := by
    intro n hn
    split_ifs <;> assumption
  rw [h.cfg_eq]
  cases h with
  | addrAckEnd | dataAckEmpty | dataAckLast => simpa using harm hpoll
  | addrNack | dataNack | arbLost => simpa using harm hbackoff
  | slaMatchArbIntent | slaMatchArbEmpty | busDefault =>
    rw [abort_tmrRemaining]
    exact harm hshort
  | serRxDropped | serRxStored =>
    simp only [rxState_tmrRemaining]
    split_ifs <;> assumption
  | timerTick => exact lt_of_le_of_lt (Nat.sub_le _ _) hfits
  | timerExpireRearmed => exact hpoll
  | reset => exact hzero
  | _ => exact hfits

/-- R32: an idle transmitter takes its byte by the fast path, and `txie` is 0 there, so it hands none out. -/
theorem Effect.keeps_idleEmpty (hen : opEnabled i s = true) (hidle : t.txIdle = true) : t.inBuf.count = 0 := by
  cases h with
  | slvDataAckFast => cases hidle
  | slvDataAckFills d hslow hroom | slvDataAckStored d hslow hroom => exact absurd ⟨hs.idleEmpty hidle, hidle⟩ hslow
  | serTxEmptyByte v hpos hv => exact absurd (hs.idleEmpty hidle) hpos.ne'
  | serTxEmptyIdle h0 => exact h0
  | reset => rfl
  | _ => simpa using hs.idleEmpty (by simpa using hidle)

/-- Every state an enabled body answers meets the invariant again. -/
theorem Effect.keeps_inv (hen : opEnabled i s = true) : Inv t where
  legal := h.cfg_eq ▸ hs.legal
  outWf := h.keeps_outWf hs
  inWf := h.keeps_inWf hs
  errHigh := h.keeps_errHigh hs
  txieNot := h.keeps_txieNot hs
  idleEmpty := h.keeps_idleEmpty hs hen
  sendingHasByte := h.keeps_sendingHasByte hs
  stopPolled := h.keeps_stopPolled hs
  timerFits := h.keeps_timerFits hs

end

/-- The fault record is no part of the invariant. -/
theorem inv_recordFault {s : State} (k : Fault) (hs : Inv s) : Inv (recordFault s k) :=
  ⟨hs.legal, hs.outWf, hs.inWf, hs.errHigh, hs.txieNot, hs.idleEmpty, hs.sendingHasByte, hs.stopPolled, hs.timerFits⟩

/-- Nor are the words still to come. -/
theorem inv_inbox {s : State} (ws : List OpWord) (hs : Inv s) : Inv { s with inbox := ws } :=
  ⟨hs.legal, hs.outWf, hs.inWf, hs.errHigh, hs.txieNot, hs.idleEmpty, hs.sendingHasByte, hs.stopPolled, hs.timerFits⟩

theorem exec_keeps_inv {i : Instr} {s t : State} (h : exec i s = .next t) (hs : Inv s) : Inv t := by
  obtain ⟨k, rfl⟩ | ⟨hen, heffect⟩ := exec_next_cases h
  · exact inv_recordFault k hs
  · exact heffect.keeps_inv hs hen

/-- Every next state of a step is the same state, a refused word's record, or what an operation answers. -/
theorem step_next_cases {s t : State} (h : step s = .next t) :
    (s.fault = none ∧ t = s) ∨ (∃ rest, t = recordFault { s with inbox := rest } .refused) ∨
      ∃ i rest, exec i { s with inbox := rest } = .next t := by
  obtain ⟨-, hstep⟩ | ⟨w, rest, -, ⟨i, -, hstep⟩ | ⟨e, -, hstep⟩⟩ := step_cases s <;> rw [hstep] at h
  · obtain ⟨hf, ⟨hen, -⟩ | ⟨-, hok⟩ | ⟨-, k, herr, -⟩⟩ := performStep_next h
    · cases hen
    · cases hok
      exact .inl ⟨hf, rfl⟩
    · cases herr
  · exact .inr (.inr ⟨i, rest, h⟩)
  · obtain ⟨-, ⟨hen, -⟩ | ⟨-, hok⟩ | ⟨-, k, herr, ht⟩⟩ := performStep_next h
    · cases hen
    · cases hok
    · cases herr
      exact .inr (.inl ⟨rest, ht⟩)

/-- Settles O39: an idle step keeps the state and a reserved word is recorded; an operation is covered, part by part, by
the lemmas above. -/
theorem stepKeepsInvariant : Obligations.StepKeepsInvariant := by
  unfold Obligations.StepKeepsInvariant
  intro s t hs h
  obtain ⟨-, rfl⟩ | ⟨rest, rfl⟩ | ⟨i, rest, hexec⟩ := step_next_cases h
  · exact hs
  · exact inv_recordFault _ (inv_inbox rest hs)
  · exact exec_keeps_inv hexec (inv_inbox rest hs)

end Sys2Proof.Proofs

namespace Sys2Proof.Proofs

open Sys2Proof.Machine Sys2Proof.Safety Sys2Proof.Laws

/-! ### Runs of operations -/

/-- A run that ends well begins with a step that records no fault. -/
theorem runAll_cons {i : Instr} {is : List Instr} {s t : State} (h : runAll (i :: is) s = some t) :
    ∃ u, exec i s = .next u ∧ u.fault = none ∧ runAll is u = some t := by
  simp only [runAll] at h
  cases he : exec i s with
  | next u =>
    simp only [he, Option.ite_none_right_eq_some] at h
    exact ⟨u, rfl, h⟩
  | fault k => simp [he] at h
  | refused r => simp [he] at h

theorem collect_cons {f : Instr → State → List Byte} {i : Instr} {is : List Instr} {s u : State}
    (h : exec i s = .next u) : collect f (i :: is) s = f i s ++ collect f is u := by
  simp [collect, h]

theorem collect_nil (is : List Instr) (s : State) : collect (fun _ _ => []) is s = [] := by
  induction is generalizing s with
  | nil => rfl
  | cons i is ih =>
    simp only [collect, List.nil_append]
    cases exec i s with
    | next t => exact ih t
    | fault | refused => rfl

/-- A stream that every step of a good run conserves is conserved along the run: what was waiting at the start, then
what the operations accepted, is what they took, then what is waiting at the end. -/
theorem runAll_conserves {waiting : State → List Byte} {taken accepted : Instr → State → List Byte}
    (hstep : ∀ {i s t}, Safety.Inv s → opEnabled i s = true → Effect s i t → i ≠ .reset →
      taken i s ++ waiting t = waiting s ++ accepted i s)
    {is : List Instr} {s t : State} (hs : Inv s) (hreset : .reset ∉ is) (h : runAll is s = some t) :
    collect taken is s ++ waiting t = waiting s ++ collect accepted is s := by
  induction is generalizing s with
  | nil =>
    cases h
    simp [collect]
  | cons i is ih =>
    obtain ⟨u, hexec, hfree, hrun⟩ := runAll_cons h
    obtain ⟨hen, heffect⟩ := exec_next_faultFree hexec hfree
    simp only [List.mem_cons, not_or] at hreset
    calc collect taken (i :: is) s ++ waiting t
        = taken i s ++ (collect taken is u ++ waiting t) := by rw [collect_cons hexec, List.append_assoc]
      _ = taken i s ++ (waiting u ++ collect accepted is u) := by rw [ih (exec_keeps_inv hexec hs) hreset.2 hrun]
      _ = (taken i s ++ waiting u) ++ collect accepted is u := by rw [List.append_assoc]
      _ = (waiting s ++ accepted i s) ++ collect accepted is u := by rw [hstep hs hen heffect (Ne.symm hreset.1)]
      _ = waiting s ++ collect accepted (i :: is) s := by rw [collect_cons hexec, List.append_assoc]

/-! ### The serial side (20_memory.md R59) -/

@[simp] theorem serBytes_append (os ps : List Output) : serBytes (os ++ ps) = serBytes os ++ serBytes ps :=
  List.filterMap_append

@[simp] theorem serBytes_nil : serBytes [] = [] := rfl

@[simp] theorem serBytes_cons_ser (b : Byte) (os : List Output) : serBytes (.ser b :: os) = b :: serBytes os := rfl

@[simp] theorem serBytes_cons_bus (dir : Directive) (v : Option Byte) (os : List Output) :
    serBytes (.bus dir v :: os) = serBytes os := rfl

@[simp] theorem serBytes_cons_ret (v : Byte) (os : List Output) : serBytes (.ret v :: os) = serBytes os := rfl

/-- The bus bytes on their way out: those written to the serial register, then those waiting in IN. -/
def serialStream (s : State) : List Byte := serBytes s.outputs ++ contents s.cfg.cIn s.inBuf

/-- A step sends the stream's bytes on, appends what it accepts, and loses none: the fast path finds IN empty, and a pop
moves the oldest waiting byte to the register. -/
theorem Effect.serialStream_eq {i : Instr} {s t : State} (h : Effect s i t) (hs : Inv s) (hreset : i ≠ .reset) :
    serialStream t = serialStream s ++ acceptedIn i s := by
  have hcap := inv_cIn_pos hs
  cases h with
  | slvDataAckFast d h0 hidle =>
    have hroom : s.inBuf.count ≠ s.cfg.cIn := by omega
    simp [serialStream, acceptedIn, hroom, contents_eq_nil hs.inWf h0]
  | slvDataAckDropped d hslow hfull => simp [serialStream, acceptedIn, hfull]
  | slvDataAckFills d hslow hlast =>
    have hroom : s.inBuf.count ≠ s.cfg.cIn := by omega
    simp [serialStream, acceptedIn, hroom, contents_pushed d hs.inWf hroom]
  | slvDataAckStored d hslow hroom => simp [serialStream, acceptedIn, hroom, contents_pushed d hs.inWf hroom]
  | serTxEmptyByte v hpos hv => simp [serialStream, acceptedIn, contents_afterPop hs.inWf hpos hv]
  | reset => exact absurd rfl hreset
  | _ => simp [serialStream, acceptedIn]

/-- Settles O46: `serialStream` is conserved by every step, and no byte leaves it. -/
theorem serialOutputOrder : Obligations.SerialOutputOrder := by
  unfold Obligations.SerialOutputOrder
  intro is s t hs hreset hrun
  have hconserved := runAll_conserves (waiting := serialStream) (taken := fun _ _ => []) (accepted := acceptedIn)
    (fun hs _ heffect hi => heffect.serialStream_eq hs hi) hs hreset hrun
  rwa [collect_nil, List.nil_append] at hconserved

/-! ### The bus side (20_memory.md R58, R60) -/

/-- A step takes the oldest byte of OUT, or appends what it accepts, and otherwise leaves the waiting bytes alone. -/
theorem Effect.outContents_eq {i : Instr} {s t : State} (h : Effect s i t) (hs : Inv s) (hreset : i ≠ .reset) :
    takenOut i s ++ contents t.cfg.cOut t.outBuf = contents s.cfg.cOut s.outBuf ++ acceptedOut i s := by
  cases h with
  | dataAckEmpty h0 => simp [takenOut, acceptedOut, contents_eq_nil hs.outWf h0]
  | dataAckLast v h1 hv => simp [takenOut, acceptedOut, contents_afterPop hs.outWf (by omega) hv]
  | dataAckByte v w hmore hv => simp [takenOut, acceptedOut, contents_afterPop hs.outWf (by omega) hv]
  | serRxDropped b hfull => simp [takenOut, acceptedOut, hfull]
  | serRxStored b hroom => simp [takenOut, acceptedOut, hroom, contents_pushed b hs.outWf hroom]
  | reset => exact absurd rfl hreset
  | _ => simp [takenOut, acceptedOut]

/-- Settles O47: every step conserves the bytes waiting in OUT, up to the one DATA_ACK takes and the one SER_RX adds. -/
theorem outboundBytesKeptInOrder : Obligations.OutboundBytesKeptInOrder := by
  unfold Obligations.OutboundBytesKeptInOrder
  intro is s t hs hreset hrun
  exact runAll_conserves (waiting := fun s => contents s.cfg.cOut s.outBuf)
    (fun hs _ heffect hi => heffect.outContents_eq hs hi) hs hreset hrun

end Sys2Proof.Proofs

namespace Sys2Proof.Proofs

open Sys2Proof.Machine Sys2Proof.Safety Sys2Proof.Laws

/-! ### The BUS rows (30_encoding.md R63-R65) -/

/-- The named rows of port BUS, in the decoder's order: each event's code and its operation. -/
def busRows (m : BusCodes) (data : Byte) : List (Byte × Instr) :=
  [(m.startSent, .startSent), (m.addrAck, .addrAck), (m.addrNack, .addrNack), (m.dataAck, .dataAck),
   (m.dataNack, .dataNack), (m.arbLost, .arbLost), (m.slaMatch, .slaMatch), (m.slaMatchArb, .slaMatchArb),
   (m.slvDataAck, .slvDataAck data), (m.slvDataNack, .slvDataNack data), (m.stopRx, .stopRx)]

/-- The operation of the first row with a given code. -/
def selectRow (code : Byte) (fallback : Instr) : List (Byte × Instr) → Instr
  | [] => fallback
  | (k, i) :: rest => if code = k then i else selectRow code fallback rest

theorem decodeBus_eq_selectRow (m : BusCodes) (code data : Byte) :
    decodeBus m code data = selectRow code (.busDefault code) (busRows m data) := rfl

/-- Everything a selection can answer. -/
theorem selectRow_cases (code : Byte) (fallback : Instr) (rows : List (Byte × Instr)) :
    (code, selectRow code fallback rows) ∈ rows ∨
      (code ∉ rows.map Prod.fst ∧ selectRow code fallback rows = fallback) := by
  induction rows with
  | nil => exact .inr ⟨List.not_mem_nil, rfl⟩
  | cons row rest ih =>
    obtain ⟨k, i⟩ := row
    rw [selectRow]
    split_ifs with hk
    · exact .inl (by simp [hk])
    · refine ih.imp (List.mem_cons_of_mem _) fun ⟨hrest, hdefault⟩ => ⟨?_, hdefault⟩
      simpa [hk] using hrest

/-- With distinct codes, the selection answers every row. -/
theorem selectRow_of_mem {code : Byte} {i : Instr} (fallback : Instr) {rows : List (Byte × Instr)}
    (hrows : (rows.map Prod.fst).Nodup) (h : (code, i) ∈ rows) : selectRow code fallback rows = i := by
  induction rows with
  | nil => cases h
  | cons row rest ih =>
    obtain ⟨k, j⟩ := row
    obtain ⟨hk, hrest⟩ := List.nodup_cons.1 hrows
    rw [selectRow]
    obtain hhead | htail := List.mem_cons.1 h
    · cases hhead
      exact if_pos rfl
    · have hne : code ≠ k := by
        intro heq
        have hmem : code ∈ rest.map Prod.fst := List.mem_map_of_mem htail
        exact hk (heq ▸ hmem)
      rw [if_neg hne, ih hrest htail]

/-- Under an injective map every named code selects its own row (R64). -/
theorem decode_bus_of_mem {m : BusCodes} {code data : Byte} {i : Instr} (hm : m.Distinct)
    (h : (code, i) ∈ busRows m data) : decode m (opWord 0x01 code data) = .ok i := by
  simp only [decode, port_opWord, code_opWord, data_opWord, if_true]
  have hrows : ((busRows m data).map Prod.fst).Nodup := hm
  rw [decodeBus_eq_selectRow, selectRow_of_mem _ hrows h]

/-! ### Decoding what was encoded (sections 1-3) -/

/-- Settles O3: a named BUS word selects its own row, a BUS_DEFAULT word none, and on the other ports the fields of the
word select one row. -/
theorem encodeDecodeRoundTrip : Obligations.EncodeDecodeRoundTrip := by
  unfold Obligations.EncodeDecodeRoundTrip
  intro m i hm hi
  cases i with
  | startSent | addrAck | addrNack | dataAck | dataNack | arbLost | slaMatch | slaMatchArb | slvDataAck | slvDataNack
  | stopRx => exact decode_bus_of_mem hm (by simp [busRows])
  | busDefault code =>
    have hcode : code ∉ m.list := by simpa [wellFormed] using hi
    simp only [decode, encode, port_opWord, code_opWord, data_opWord, if_true, decodeBus_eq_selectRow]
    obtain hrow | ⟨-, hdefault⟩ := selectRow_cases code (.busDefault code) (busRows m 0x00)
    · exact absurd (List.mem_map_of_mem (f := Prod.fst) hrow) hcode
    · rw [hdefault]
  | timerExpire busy => cases busy <;> simp [decode, encode, decodeTmr, busyData]
  | serRx | serTxEmpty | timerTick | readRole | readReady | clearReady | readErr | readClearErr | beginSend | critEnter
  | critExit | reset => simp [decode, encode, decodeSrx, decodeStx, decodeTmr, decodeHost, decodeReset]

/-! ### Encoding what was decoded -/

/-- A named row's operation is well formed, and its encoding is the row's word, up to a DATA byte the row ignores. -/
theorem encode_of_mem_busRows {m : BusCodes} {code data : Byte} {i : Instr} (h : (code, i) ∈ busRows m data) :
    wellFormed m i = true ∧
    (encode m i = opWord 0x01 code data ∨
      ((∀ d, i ≠ .slvDataAck d) ∧ (∀ d, i ≠ .slvDataNack d) ∧ encode m i = opWord 0x01 code 0x00)) := by
  simp only [busRows, List.mem_cons, Prod.mk.injEq, List.not_mem_nil, or_false] at h
  rcases h with h | h | h | h | h | h | h | h | h | h | h <;> obtain ⟨rfl, rfl⟩ := h <;> simp [wellFormed, encode]

/-- A BUS word is the encoding of its operation, up to an ignored DATA byte. -/
theorem encode_decodeBus (m : BusCodes) (code data : Byte) :
    wellFormed m (decodeBus m code data) = true ∧
    (encode m (decodeBus m code data) = opWord 0x01 code data ∨
      ((∀ d, decodeBus m code data ≠ .slvDataAck d) ∧ (∀ d, decodeBus m code data ≠ .slvDataNack d) ∧
        encode m (decodeBus m code data) = opWord 0x01 code 0x00)) := by
  rw [decodeBus_eq_selectRow]
  obtain hrow | ⟨hnone, hdefault⟩ := selectRow_cases code (.busDefault code) (busRows m data)
  · exact encode_of_mem_busRows hrow
  · have hcode : code ∉ m.list := hnone
    rw [hdefault]
    exact ⟨by simpa [wellFormed] using hcode, .inr ⟨nofun, nofun, rfl⟩⟩

theorem encode_of_decodeSrx {m : BusCodes} {code data : Byte} {i : Instr} (h : decodeSrx code data = .ok i) :
    wellFormed m i = true ∧ encode m i = opWord 0x02 code data := by
  unfold decodeSrx at h
  split_ifs at h with hcode
  cases h
  exact ⟨rfl, by rw [hcode, encode]⟩

theorem encode_of_decodeStx {m : BusCodes} {code data : Byte} {i : Instr} (h : decodeStx code data = .ok i) :
    wellFormed m i = true ∧ encode m i = opWord 0x03 code data := by
  unfold decodeStx at h
  split_ifs at h with hword
  cases h
  exact ⟨rfl, by rw [hword.1, hword.2, encode]⟩

theorem encode_of_decodeTmr {m : BusCodes} {code data : Byte} {i : Instr} (h : decodeTmr code data = .ok i) :
    wellFormed m i = true ∧ encode m i = opWord 0x04 code data := by
  unfold decodeTmr at h
  split_ifs at h with htick hdone hbusy <;> cases h
  · exact ⟨rfl, by rw [htick.1, htick.2, encode]⟩
  · exact ⟨rfl, by rw [hdone.1, hdone.2]; rfl⟩
  · exact ⟨rfl, by rw [hbusy.1, hbusy.2]; rfl⟩

theorem encode_of_decodeHost {m : BusCodes} {code data : Byte} {i : Instr} (h : decodeHost code data = .ok i) :
    wellFormed m i = true ∧ encode m i = opWord 0x05 code data := by
  unfold decodeHost at h
  split_ifs at h with hdata <;> cases h <;> rw [not_not.1 hdata] <;> subst code <;> exact ⟨rfl, rfl⟩

theorem encode_of_decodeReset {m : BusCodes} {code data : Byte} {i : Instr} (h : decodeReset code data = .ok i) :
    wellFormed m i = true ∧ encode m i = opWord 0x06 code data := by
  unfold decodeReset at h
  split_ifs at h with hword
  cases h
  exact ⟨rfl, by rw [hword.1, hword.2, encode]⟩

/-- Settles O4: port by port, by the lemmas above, a word being its three fields. -/
theorem decodeKeepsEveryReadBit : Obligations.DecodeKeepsEveryReadBit := by
  unfold Obligations.DecodeKeepsEveryReadBit
  intro m w i h
  have hw := opWord_fields w
  unfold decode at h
  split_ifs at h with hbus hsrx hstx htmr hhost hreset
  · cases h
    obtain ⟨hwf, heq | ⟨hack, hnack, heq⟩⟩ := encode_decodeBus m (OpWord.code w) (OpWord.data w)
    · exact ⟨hwf, .inl (by rw [heq, ← hbus, hw])⟩
    · exact ⟨hwf, .inr ⟨hbus, hack, hnack, heq⟩⟩
  · exact (encode_of_decodeSrx h).imp_right fun heq => .inl (by rw [heq, ← hsrx, hw])
  · exact (encode_of_decodeStx h).imp_right fun heq => .inl (by rw [heq, ← hstx, hw])
  · exact (encode_of_decodeTmr h).imp_right fun heq => .inl (by rw [heq, ← htmr, hw])
  · exact (encode_of_decodeHost h).imp_right fun heq => .inl (by rw [heq, ← hhost, hw])
  · exact (encode_of_decodeReset h).imp_right fun heq => .inl (by rw [heq, ← hreset, hw])

/-! ### The opcode table -/

theorem opWord_inj {p c d p' c' d' : Byte} : opWord p c d = opWord p' c' d' ↔ p = p' ∧ c = c' ∧ d = d' := by
  constructor
  · intro h
    exact ⟨by simpa using congrArg OpWord.port h, by simpa using congrArg OpWord.code h,
      by simpa using congrArg OpWord.data h⟩
  · rintro ⟨rfl, rfl, rfl⟩
    rfl

theorem opWord_and (p c d p' c' d' : Byte) :
    opWord p c d &&& opWord p' c' d' = opWord (p &&& p') (c &&& c') (d &&& d') :=
  BitVec.and_append.trans (congrArg (· ++ (d &&& d')) BitVec.and_append)

/-- A row's test of a word is a test of each field. -/
@[simp] theorem covers_opWord (r : OpcodeRow) (p c d : Byte) :
    r.covers (opWord p c d) = true ↔
      p &&& OpWord.port r.mask = OpWord.port r.pattern ∧ c &&& OpWord.code r.mask = OpWord.code r.pattern ∧
        d &&& OpWord.data r.mask = OpWord.data r.pattern := by
  rw [OpcodeRow.covers, beq_iff_eq, ← opWord_inj, ← opWord_and, opWord_fields, opWord_fields]

/-- The first row that matches gives the mnemonic. -/
theorem find?_cons_map {α β : Type} (p : α → Bool) (f : α → β) (a : α) (l : List α) :
    ((a :: l).find? p).map f = if p a = true then some (f a) else (l.find? p).map f := by
  cases h : p a <;> simp [h]

/-- The mnemonic a decoder's verdict names, if any. -/
def verdictMnemonic (r : Except DecodeError Instr) : Option Mnemonic := r.toOption.map Instr.mnemonic

@[simp] theorem verdictMnemonic_ok (i : Instr) : verdictMnemonic (.ok i) = some i.mnemonic := rfl

@[simp] theorem verdictMnemonic_error (e : DecodeError) : verdictMnemonic (.error e) = none := rfl

@[simp] theorem verdictMnemonic_ite (c : Prop) [Decidable c] (r r' : Except DecodeError Instr) :
    verdictMnemonic (if c then r else r') = if c then verdictMnemonic r else verdictMnemonic r' :=
  apply_ite verdictMnemonic c r r'

@[simp] theorem and_fullMask (x : Byte) : x &&& 255#8 = x := by
  revert x
  decide

/-- The mask of TIMER_EXPIRE leaves the busy bit free (R68). -/
@[simp] theorem and_busyMask_eq_zero (x : Byte) : x &&& 254#8 = 0#8 ↔ x = 0#8 ∨ x = 1#8 := by
  revert x
  decide

theorem tableMnemonic_bus (c d : Byte) :
    tableMnemonic (opWord 0x01 c d) = verdictMnemonic (.ok (decodeBus defaultBusCodes c d)) := by
  simp only [verdictMnemonic_ok, decodeBus, apply_ite Instr.mnemonic, apply_ite some]
  simp [tableMnemonic, opcodeTable, find?_cons_map, OpWord.port, OpWord.code, OpWord.data, defaultBusCodes,
    Instr.mnemonic] <;> rfl

theorem tableMnemonic_srx (c d : Byte) : tableMnemonic (opWord 0x02 c d) = verdictMnemonic (decodeSrx c d) := by
  simp [tableMnemonic, opcodeTable, find?_cons_map, OpWord.port, OpWord.code, OpWord.data, decodeSrx, Instr.mnemonic]

theorem tableMnemonic_stx (c d : Byte) : tableMnemonic (opWord 0x03 c d) = verdictMnemonic (decodeStx c d) := by
  simp [tableMnemonic, opcodeTable, find?_cons_map, OpWord.port, OpWord.code, OpWord.data, decodeStx, Instr.mnemonic]

theorem tableMnemonic_tmr (c d : Byte) : tableMnemonic (opWord 0x04 c d) = verdictMnemonic (decodeTmr c d) := by
  simp [tableMnemonic, opcodeTable, find?_cons_map, OpWord.port, OpWord.code, OpWord.data, decodeTmr, Instr.mnemonic]
  split_ifs <;> simp_all

theorem tableMnemonic_host (c d : Byte) : tableMnemonic (opWord 0x05 c d) = verdictMnemonic (decodeHost c d) := by
  by_cases hd : d = 0#8 <;>
    simp [tableMnemonic, opcodeTable, find?_cons_map, OpWord.port, OpWord.code, OpWord.data, decodeHost, Instr.mnemonic,
      hd]

theorem tableMnemonic_reset (c d : Byte) : tableMnemonic (opWord 0x06 c d) = verdictMnemonic (decodeReset c d) := by
  simp [tableMnemonic, opcodeTable, OpWord.port, OpWord.code, OpWord.data, decodeReset, Instr.mnemonic]

theorem tableMnemonic_reservedPort {p : Byte} (c d : Byte) (hbus : p ≠ 0x01) (hsrx : p ≠ 0x02) (hstx : p ≠ 0x03)
    (htmr : p ≠ 0x04) (hhost : p ≠ 0x05) (hreset : p ≠ 0x06) : tableMnemonic (opWord p c d) = none := by
  have hports : p ≠ 1#8 ∧ p ≠ 2#8 ∧ p ≠ 3#8 ∧ p ≠ 4#8 ∧ p ≠ 5#8 ∧ p ≠ 6#8 :=
    ⟨hbus, hsrx, hstx, htmr, hhost, hreset⟩
  simp [tableMnemonic, opcodeTable, OpWord.port, OpWord.code, OpWord.data, hports]

/-- Settles O5: port by port, each row's test being a test of the fields. -/
theorem decoderIsOpcodeTable : Obligations.DecoderIsOpcodeTable := by
  unfold Obligations.DecoderIsOpcodeTable
  intro w
  have hw := opWord_fields w
  change verdictMnemonic (decode defaultBusCodes w) = tableMnemonic w
  unfold decode
  split_ifs with hbus hsrx hstx htmr hhost hreset
  · rw [← tableMnemonic_bus, ← hbus, hw]
  · rw [← tableMnemonic_srx, ← hsrx, hw]
  · rw [← tableMnemonic_stx, ← hstx, hw]
  · rw [← tableMnemonic_tmr, ← htmr, hw]
  · rw [← tableMnemonic_host, ← hhost, hw]
  · rw [← tableMnemonic_reset, ← hreset, hw]
  · rw [← hw, tableMnemonic_reservedPort _ _ hbus hsrx hstx htmr hhost hreset]
    rfl

end Sys2Proof.Proofs

namespace Sys2Proof.Proofs

open Sys2Proof.Machine Sys2Proof.Safety Sys2Proof.Laws

/-! ### Taking a word (30_encoding.md section 6) -/

/-- The step of a waiting word is the step of the decoder's verdict on it, with the word taken. -/
theorem step_eq_runDecoded {s : State} {w : OpWord} {rest : List OpWord} (h : s.inbox = w :: rest) :
    step s = runDecoded (decode s.cfg.busCodes w) { s with inbox := rest } := by
  simp only [step, fetch, h]

/-- Settles O7: the verdict is the operation. -/
theorem stepRunsDecodedOperation : Obligations.StepRunsDecodedOperation := by
  unfold Obligations.StepRunsDecodedOperation
  intro s w rest i hinbox hdecode
  rw [step_eq_runDecoded hinbox, hdecode, runDecoded]

/-- Settles O11: with no word waiting the step is the idle one, which answers its own state. -/
theorem idleBlockKeepsState : Obligations.IdleBlockKeepsState := by
  unfold Obligations.IdleBlockKeepsState
  intro s hf hinbox
  obtain ⟨-, hstep⟩ | ⟨w, rest, hcons, -⟩ := step_cases s
  · exact hstep.trans (performStep_ok hf rfl)
  · simp [hinbox] at hcons

/-- A word that is reserved under one code map is reserved under every other: no BUS word is, and the other ports do not
read the map (R77). -/
theorem decode_error_of_error {m m' : BusCodes} {w : OpWord} {e : DecodeError} (h : decode m w = .error e) :
    decode m' w = .error e := by
  by_cases hbus : OpWord.port w = 0x01
  · rw [decode, if_pos hbus] at h
    cases h
  · rw [decode, if_neg hbus] at h ⊢
    exact h

/-- A word that no row of the table matches is reserved. -/
theorem decode_error_of_tableMnemonic_none {w : OpWord} (m : BusCodes) (h : tableMnemonic w = none) :
    ∃ e, decode m w = .error e := by
  have htable := decoderIsOpcodeTable w
  rw [h] at htable
  cases hd : decode defaultBusCodes w with
  | ok i => simp [hd, Except.toOption] at htable
  | error e => exact ⟨e, decode_error_of_error hd⟩

/-- Settles O8: by O5 a word without a row is the decoder's error, which `refuseWord` records; a BUS word always
decodes. -/
theorem reservedWordRecordsRefused : Obligations.ReservedWordRecordsRefused := by
  unfold Obligations.ReservedWordRecordsRefused
  intro s w rest hf hinbox
  constructor
  · intro htable
    obtain ⟨e, hdecode⟩ := decode_error_of_tableMnemonic_none s.cfg.busCodes htable
    rw [step_eq_runDecoded hinbox, hdecode]
    exact performStep_error hf rfl
  · intro hport
    have hdecode : decode s.cfg.busCodes w = .ok (decodeBus s.cfg.busCodes (OpWord.code w) (OpWord.data w)) := by
      rw [decode, if_pos hport]
    exact ⟨_, hdecode, by rw [step_eq_runDecoded hinbox, hdecode, runDecoded]⟩

/-- Settles O6: the decoder computes these eight words. -/
theorem specWordsDecode : Obligations.SpecWordsDecode := by
  unfold Obligations.SpecWordsDecode
  exact ⟨rfl, rfl, rfl, rfl, rfl, rfl, rfl, rfl⟩

/-! ### Reset (10_state.md section 12, 70_reset_and_hazards.md R153) -/

/-- Settles O1: the values `State.initial` is written with. -/
theorem resetStateValues : Obligations.ResetStateValues := by
  unfold Obligations.ResetStateValues
  exact ⟨fun c => ⟨rfl, rfl, rfl, rfl, rfl, rfl, rfl, rfl, rfl, rfl, rfl, rfl, rfl, rfl, rfl, rfl, rfl, rfl⟩, rfl⟩

/-- Settles O2: RESET is always enabled and answers `resetState`. -/
theorem resetStepRestoresElements : Obligations.ResetStepRestoresElements := by
  unfold Obligations.ResetStepRestoresElements
  refine ⟨fun c => rfl, fun s hf => ⟨resetState s, exec_eq_next_of_ok hf rfl rfl, ?_⟩⟩
  simp [resetRing]

/-- Settles O38: the buffers are as reset leaves them, the transmitter is idle, and nothing is pending or running. -/
theorem resetMeetsInvariant : Obligations.ResetMeetsInvariant := by
  unfold Obligations.ResetMeetsInvariant
  refine ⟨fun c hc => ?_, by decide⟩
  exact {
    legal := hc
    outWf := ringWf_resetRing (legalCapacities_pos hc.1)
    inWf := ringWf_resetRing (legalCapacities_pos hc.2.1)
    errHigh := BitVec.zero_and
    txieNot := rfl
    idleEmpty := fun _ => rfl
    sendingHasByte := nofun
    stopPolled := fun _ => nofun
    timerFits := Nat.two_pow_pos _ }

/-! ### When an operation runs, and what it can raise (30_encoding.md R75, 60_exceptions.md R146) -/

theorem performStep_faultFree {s : State} (en : Bool) (body : Except Fault State) (hf : s.fault = none) :
    ∃ t, performStep s en body = .next t := by
  cases en with
  | false => exact ⟨_, performStep_disabled body hf rfl⟩
  | true =>
    cases body with
    | ok t => exact ⟨t, performStep_ok hf rfl⟩
    | error k => exact ⟨_, performStep_error hf rfl⟩

theorem exec_faultFree {s : State} (i : Instr) (hf : s.fault = none) : ∃ t, exec i s = .next t := by
  rw [exec_eq_performStep]
  exact performStep_faultFree _ _ hf

/-- Settles O10: every case of `step_cases` is one atomic step from a state with no fault recorded. -/
theorem faultFreeStepAnswersNext : Obligations.FaultFreeStepAnswersNext := by
  unfold Obligations.FaultFreeStepAnswersNext
  intro s hf
  refine ⟨?_, fun i => exec_faultFree i hf⟩
  obtain ⟨-, hstep⟩ | ⟨w, rest, -, ⟨i, -, hstep⟩ | ⟨e, -, hstep⟩⟩ := step_cases s <;> rw [hstep]
  · exact performStep_faultFree _ _ hf
  · exact exec_faultFree i hf
  · exact performStep_faultFree _ _ hf

/-- The model's enabling is the table of R75. -/
theorem opEnabled_iff (i : Instr) (s : State) : opEnabled i s = true ↔ Enabled i s := by
  cases i with
  | timerTick => exact tickEnabled_iff s
  | timerExpire busy =>
    rw [Enabled, if_neg (by simp)]
    exact expireEnabled_iff s
  | serTxEmpty => exact stxEnabled_iff s
  | readRole | readReady | clearReady | readErr | readClearErr | beginSend | critEnter | critExit | reset =>
    exact iff_of_true rfl trivial
  | _ => exact irqOpen_iff s

/-- No access to a well-formed buffer misses: its indices are legal, and its oldest slot is written. -/
theorem not_ringWf_of_miss {c : Nat} {b : RingBuf}
    (h : ¬ b.head < c ∨ ¬ b.tail < c ∨ (0 < b.count ∧ storeRead b.data b.tail = none)) : ¬ RingWf c b := by
  intro hwf
  obtain hhead | htail | ⟨hpos, hnone⟩ := h
  · exact hhead (ringWf_head_lt hwf)
  · exact htail hwf.tailLt
  · obtain ⟨v, hv⟩ := ringWf_tail_written hwf hpos
    simp [hnone] at hv

/-- The two faults of the buffer storage (20_memory.md R47, R49). -/
abbrev IsStorageFault (k : Fault) : Prop := k = .unwrittenSlot ∨ k = .noSuchSlot

theorem transmitTail_error {s : State} {k : Fault} (h : transmitTail s = .error k) :
    IsStorageFault k ∧ ¬ RingWf s.cfg.cOut s.outBuf := by
  obtain ⟨-, hr⟩ | ⟨-, v, -, hr⟩ | ⟨hpos, ⟨-, hnone, hr⟩ | ⟨htail, hr⟩⟩ := transmitTail_cases h <;> cases hr
  · exact ⟨.inl rfl, not_ringWf_of_miss (.inr (.inr ⟨hpos, hnone⟩))⟩
  · exact ⟨.inr rfl, not_ringWf_of_miss (.inr (.inl htail))⟩

theorem dataAckBody_error {s : State} {k : Fault} (h : dataAckBody s = .error k) :
    IsStorageFault k ∧ ¬ RingWf s.cfg.cOut s.outBuf := by
  obtain ⟨-, hr⟩ | ⟨hpos, v, -, hr⟩ | ⟨hpos, ⟨-, hnone, hr⟩ | ⟨htail, hr⟩⟩ := dataAckBody_cases s <;> rw [hr] at h
  · cases h
  · exact (transmitTail_error h).imp_right fun hpopped hwf => hpopped (ringWf_afterPop hwf hpos)
  · cases h
    exact ⟨.inl rfl, not_ringWf_of_miss (.inr (.inr ⟨hpos, hnone⟩))⟩
  · cases h
    exact ⟨.inr rfl, not_ringWf_of_miss (.inr (.inl htail))⟩

theorem slvDataAckBody_error {d : Byte} {s : State} {k : Fault} (h : slvDataAckBody d s = .error k) :
    IsStorageFault k ∧ ¬ RingWf s.cfg.cIn s.inBuf := by
  obtain ⟨-, hr⟩ | ⟨-, -, hr⟩ | ⟨-, -, -, hr⟩ | ⟨-, hhead, hr⟩ := slvDataAckBody_cases d s <;> rw [hr] at h <;> cases h
  exact ⟨.inr rfl, not_ringWf_of_miss (.inl hhead)⟩

theorem serRxBody_error {b : Byte} {s : State} {k : Fault} (h : serRxBody b s = .error k) :
    IsStorageFault k ∧ ¬ RingWf s.cfg.cOut s.outBuf := by
  obtain ⟨-, hr⟩ | ⟨-, -, hr⟩ | ⟨-, hhead, hr⟩ := serRxBody_cases b s <;> rw [hr] at h <;> cases h
  exact ⟨.inr rfl, not_ringWf_of_miss (.inl hhead)⟩

theorem serTxEmptyBody_error {s : State} {k : Fault} (h : serTxEmptyBody s = .error k) :
    IsStorageFault k ∧ ¬ RingWf s.cfg.cIn s.inBuf := by
  obtain ⟨-, hr⟩ | ⟨-, v, -, hr⟩ | ⟨hpos, ⟨-, hnone, hr⟩ | ⟨htail, hr⟩⟩ := serTxEmptyBody_cases s <;>
    rw [hr] at h <;> cases h
  · exact ⟨.inl rfl, not_ringWf_of_miss (.inr (.inr ⟨hpos, hnone⟩))⟩
  · exact ⟨.inr rfl, not_ringWf_of_miss (.inr (.inl htail))⟩

/-- The faults a rule raises whatever the buffers hold (R116, R126, R129, R130). -/
abbrev IsRuleFault (k : Fault) : Prop :=
  k = .hostContract ∨ k = .critOverflow ∨ k = .critUnderflow ∨ k = .stopPollExhausted

/-- A body raises its rule's fault, or finds a buffer that is not well formed. -/
theorem opBody_error {i : Instr} {s : State} {k : Fault} (h : opBody i s = .error k) :
    IsRuleFault k ∨ (IsStorageFault k ∧ ¬ (RingWf s.cfg.cOut s.outBuf ∧ RingWf s.cfg.cIn s.inBuf)) := by
  cases i with
  | addrAck => exact .inr ((transmitTail_error h).imp_right fun hout hwf => hout hwf.1)
  | dataAck => exact .inr ((dataAckBody_error h).imp_right fun hout hwf => hout hwf.1)
  | slvDataAck d => exact .inr ((slvDataAckBody_error h).imp_right fun hin hwf => hin hwf.2)
  | serRx b => exact .inr ((serRxBody_error h).imp_right fun hout hwf => hout hwf.1)
  | serTxEmpty => exact .inr ((serTxEmptyBody_error h).imp_right fun hin hwf => hin hwf.2)
  | timerExpire busy =>
    change timerExpireBody busy s = .error k at h
    obtain ⟨-, hr⟩ | ⟨-, -, hr⟩ | ⟨-, -, -, hr⟩ | ⟨-, -, -, hr⟩ := timerExpireBody_cases busy s <;>
      rw [hr] at h <;> cases h
    exact .inl (.inr (.inr (.inr rfl)))
  | beginSend =>
    change beginSendBody s = .error k at h
    obtain ⟨-, -, hr⟩ | ⟨-, -, hr⟩ | ⟨-, hr⟩ := beginSendBody_cases s <;> rw [hr] at h <;> cases h
    exact .inl (.inl rfl)
  | critEnter =>
    simp only [opBody] at h
    split_ifs at h
    cases h
    exact .inl (.inr (.inl rfl))
  | critExit =>
    simp only [opBody] at h
    split_ifs at h
    cases h
    exact .inl (.inr (.inr (.inl rfl)))
  | _ => cases h

/-- Settles O12: the enabling is R75's table; an enabled step keeps an empty fault record, or records a fault of
its rule or of the storage. -/
theorem disabledWordRecordsEventNotEnabled : Obligations.DisabledWordRecordsEventNotEnabled := by
  unfold Obligations.DisabledWordRecordsEventNotEnabled
  intro i s hf
  rw [← opEnabled_iff]
  constructor
  · intro hdisabled
    rw [exec_eq_performStep]
    exact performStep_disabled _ hf (Bool.eq_false_iff.2 hdisabled)
  · intro hen
    cases hbody : opBody i s with
    | ok t =>
      refine ⟨t, exec_eq_next_of_ok hf hen hbody, ?_⟩
      rw [(opBody_effect hbody).fault_eq, hf]
      nofun
    | error k =>
      refine ⟨_, exec_eq_next_recordFault_of_error hf hen hbody, ?_⟩
      obtain (rfl | rfl | rfl | rfl) | ⟨rfl | rfl, -⟩ := opBody_error hbody <;> simp

/-! ### Buffer accesses from good states (20_memory.md section 1) -/

theorem exec_not_storageFault {i : Instr} {s t : State} (h : exec i s = .next t) (hs : Inv s) :
    t.fault ≠ some .unwrittenSlot ∧ t.fault ≠ some .noSuchSlot := by
  obtain ⟨hf, ⟨-, rfl⟩ | ⟨-, hok⟩ | ⟨-, k, herr, rfl⟩⟩ := exec_next h
  · simp
  · simp [(opBody_effect hok).fault_eq, hf]
  · obtain hrule | ⟨-, hbad⟩ := opBody_error herr
    · obtain rfl | rfl | rfl | rfl := hrule <;> simp
    · exact absurd ⟨hs.outWf, hs.inWf⟩ hbad

/-- Settles O40: an idle step records nothing, a refused word records Refused, and an operation raises a storage fault
only on a buffer that is not well formed. -/
theorem bufferAccessesAreSound : Obligations.BufferAccessesAreSound := by
  unfold Obligations.BufferAccessesAreSound
  intro s t hs h
  obtain ⟨hf, rfl⟩ | ⟨rest, rfl⟩ | ⟨i, rest, hexec⟩ := step_next_cases h
  · simp [hf]
  · simp
  · exact exec_not_storageFault hexec (inv_inbox rest hs)

/-! ### Peek and the round trip (40_ring_buffer.md R82, R85) -/

/-- Settles O15: `ringPeek_cases` answers None on the empty buffer and the byte at `tail` otherwise, which heads the
contents. -/
theorem peekReadsOldest : Obligations.PeekReadsOldest := by
  unfold Obligations.PeekReadsOldest
  intro c b hwf
  obtain ⟨h0, hp⟩ | ⟨hpos, v, -, hv, hp⟩ | ⟨hpos, ⟨-, hnone, -⟩ | ⟨htail, -⟩⟩ := ringPeek_cases c b
  · exact ⟨by rw [hp, contents_eq_nil hwf h0, List.head?_nil], fun hpos => absurd h0 hpos.ne'⟩
  · exact ⟨by rw [hp, contents_afterPop hwf hpos hv, List.head?_cons], fun _ => ⟨v, hv, hp⟩⟩
  · exact absurd hwf (not_ringWf_of_miss (.inr (.inr ⟨hpos, hnone⟩)))
  · exact absurd hwf (not_ringWf_of_miss (.inr (.inl htail)))

/-- Pushes within the capacity all succeed, and append their bytes in order. -/
theorem pushAll_eq {c : Nat} {b : RingBuf} {vs : List Byte} (hwf : RingWf c b) (hfit : b.count + vs.length ≤ c) :
    ∃ q, pushAll c vs b = some q ∧ RingWf c q ∧ q.count = b.count + vs.length ∧ contents c q = contents c b ++ vs := by
  induction vs generalizing b with
  | nil => exact ⟨b, rfl, hwf, rfl, (List.append_nil _).symm⟩
  | cons v vs ih =>
    rw [List.length_cons] at hfit
    have hroom : b.count ≠ c := by omega
    have hcount : (pushed c b v).count = b.count + 1 := rfl
    obtain ⟨q, hq, hqwf, hqcount, hqcontents⟩ := ih (ringWf_pushed v hwf hroom) (by omega)
    refine ⟨q, ?_, hqwf, by rw [List.length_cons]; omega, ?_⟩
    · rw [pushAll, ringPush_eq_pushed v hwf hroom]
      exact hq
    · rw [hqcontents, contents_pushed v hwf hroom, List.append_assoc, List.singleton_append]

/-- As many pops as there are bytes give all of them, oldest first, and the last one resets the indices. -/
theorem popMany_count {c : Nat} {b : RingBuf} (hwf : RingWf c b) (hpos : 0 < b.count) :
    ∃ r, popMany c b.count b = some (contents c b, r) ∧ r.count = 0 ∧ r.head = 0 ∧ r.tail = 0 := by
  obtain ⟨n, hn⟩ : ∃ n, b.count = n + 1 := ⟨b.count - 1, by omega⟩
  induction n generalizing b with
  | zero =>
    obtain ⟨v, hv, hp⟩ := ringPop_eq_afterPop hwf hpos
    have h0 : (afterPop c b).count = 0 := by rw [afterPop_count, hn]
    have hindices := afterPop_indices c b
    rw [if_pos hn] at hindices
    refine ⟨afterPop c b, ?_, h0, hindices⟩
    rw [hn, popMany, hp, contents_afterPop hwf hpos hv, contents_eq_nil (ringWf_afterPop hwf hpos) h0]
    rfl
  | succ n ih =>
    obtain ⟨v, hv, hp⟩ := ringPop_eq_afterPop hwf hpos
    have hcount : (afterPop c b).count = n + 1 := by rw [afterPop_count, hn, Nat.add_sub_cancel]
    obtain ⟨r, hr, hempty⟩ := ih (ringWf_afterPop hwf hpos) (by omega) hcount
    refine ⟨r, ?_, hempty⟩
    rw [hcount] at hr
    rw [hn, popMany, hp, contents_afterPop hwf hpos hv]
    simp only [hr, Option.map_some]

/-- Settles O16: the pushes leave the old bytes and then the new ones, and the pops give all of them. -/
theorem bufferRoundTrip : Obligations.BufferRoundTrip := by
  unfold Obligations.BufferRoundTrip
  intro c b vs hwf hpos hfit
  obtain ⟨q, hq, hqwf, hqcount, hqcontents⟩ := pushAll_eq hwf hfit
  obtain ⟨r, hr, hempty⟩ := popMany_count hqwf (hqcount ▸ hpos)
  exact ⟨q, r, hq, by rw [← hqcount, hr, hqcontents], hempty⟩

end Sys2Proof.Proofs

namespace Sys2Proof.Proofs

open Sys2Proof.Machine Sys2Proof.Safety Sys2Proof.Laws

/-! ### Frames (10_state.md section 9) -/

/-- A body writes no element outside its operation's list. -/
theorem Effect.same {i : Instr} {s t : State} (h : Effect s i t) (e : Element) (he : e ∉ mayWrite i) : Same e s t := by
  cases h <;> cases e <;> simp [mayWrite, Same] at he ⊢

/-- A recorded fault changes the fault record alone. -/
theorem same_recordFault {s : State} (k : Fault) {e : Element} (he : e ≠ .fault) : Same e s (recordFault s k) := by
  cases e with
  | fault => exact absurd rfl he
  | outIndex | inIndex => exact ⟨rfl, rfl, rfl⟩
  | _ => rfl

/-- Every operation but RESET may record a fault. -/
theorem fault_mem_mayWrite {i : Instr} (hi : i ≠ .reset) : Element.fault ∈ mayWrite i := by
  cases i <;> simp [mayWrite] at hi ⊢

/-- Settles O36: RESET raises no fault, so only its body counts; every other operation may write the fault record. -/
theorem operationFrame : Obligations.OperationFrame := by
  unfold Obligations.OperationFrame
  intro i s t e h he
  by_cases hi : i = .reset
  · subst hi
    rw [exec_next_eq_of_ok h rfl rfl]
    exact Effect.reset.same e he
  · obtain ⟨k, rfl⟩ | ⟨-, heffect⟩ := exec_next_cases h
    · exact same_recordFault k fun hfault => he (hfault ▸ fault_mem_mayWrite hi)
    · exact heffect.same e he

/-- OUT's storage is written by SER_RX alone, at `head`. -/
theorem Effect.outBuf_slot {i : Instr} {s t : State} {a : Nat} (h : Effect s i t) (hreset : i ≠ .reset)
    (ha : ∀ b, i = .serRx b → a ≠ s.outBuf.head) : storeRead t.outBuf.data a = storeRead s.outBuf.data a := by
  cases h with
  | serRxStored b hroom => exact storeRead_storeWrite_other _ _ (ha b rfl)
  | reset => exact absurd rfl hreset
  | _ => simp

/-- IN's storage is written by SLV_DATA_ACK alone, at `head`. -/
theorem Effect.inBuf_slot {i : Instr} {s t : State} {a : Nat} (h : Effect s i t) (hreset : i ≠ .reset)
    (ha : ∀ d, i = .slvDataAck d → a ≠ s.inBuf.head) : storeRead t.inBuf.data a = storeRead s.inBuf.data a := by
  cases h with
  | slvDataAckFills d | slvDataAckStored d => exact storeRead_storeWrite_other _ _ (ha d rfl)
  | reset => exact absurd rfl hreset
  | _ => simp

/-- Settles O37: a recorded fault keeps every byte; a body stores one at most, at its buffer's head. -/
theorem bufferByteFrame : Obligations.BufferByteFrame := by
  unfold Obligations.BufferByteFrame
  intro i s t h hreset a
  obtain ⟨k, rfl⟩ | ⟨-, heffect⟩ := exec_next_cases h
  · exact ⟨fun _ => rfl, fun _ => rfl⟩
  · exact ⟨heffect.outBuf_slot hreset, heffect.inBuf_slot hreset⟩

/-! ### Transitions (43_bus_slave.md R109, 10_state.md R20, R21) -/

/-- Settles O41: the outcomes that write `role` are those of the list, each with its condition. -/
theorem roleTransitions : Obligations.RoleTransitions := by
  unfold Obligations.RoleTransitions
  intro i s t h hne
  obtain ⟨k, rfl⟩ | ⟨-, heffect⟩ := exec_next_cases h
  · exact absurd rfl hne
  · cases heffect with
    | beginSendStarts hrole hready hpos => exact .inl ⟨rfl, hrole, hready, hpos, rfl⟩
    | slaMatchFull hrole hfull => exact .inr (.inl ⟨rfl, hrole, by simp [hfull]⟩)
    | slaMatchOpen hrole hroom => exact .inr (.inl ⟨rfl, hrole, by simp [hroom]⟩)
    | addrNack | dataNack | arbLost | slaMatchArbIntent | slaMatchArbEmpty | busDefault | stopRx =>
      exact .inr (.inr (.inl ⟨by simp, by simp⟩))
    | slvDataAckDropped d hslow hfull => exact .inr (.inr (.inr (.inl ⟨⟨d, rfl⟩, rfl, hfull⟩)))
    | slvDataAckFills d hslow hlast => exact .inr (.inr (.inr (.inl ⟨⟨d, rfl⟩, rfl, hlast⟩)))
    | slvDataNackDrained d hrole => exact .inr (.inr (.inr (.inr (.inl ⟨⟨d, rfl⟩, hrole, rfl⟩))))
    | timerExpireConfirmed hpend => exact .inr (.inr (.inr (.inr (.inr (.inl ⟨rfl, hpend, rfl⟩)))))
    | reset => exact .inr (.inr (.inr (.inr (.inr (.inr ⟨rfl, rfl⟩)))))
    | _ => exact absurd (by simp) hne

/-- A flag that is kept neither rises nor drops. -/
theorem flag_kept {a b : Bool} {P Q : Prop} (h : b = a) : (a = false → b = true → P) ∧ (a = true → b = false → Q) := by
  subst h
  cases b <;> simp

/-- Settles O42: three outcomes raise the intent, each with its condition, and three drop it. -/
theorem readyToSendTransitions : Obligations.ReadyToSendTransitions := by
  unfold Obligations.ReadyToSendTransitions
  intro i s t h
  obtain ⟨k, rfl⟩ | ⟨-, heffect⟩ := exec_next_cases h
  · exact flag_kept (by simp)
  · cases heffect with
    | serRxDropped b | serRxStored b =>
      simp only [rxState_readyToSend, rxState_outBuf]
      split_ifs with hthreshold
      · exact ⟨fun _ _ => .inl ⟨⟨b, rfl⟩, hthreshold⟩, nofun⟩
      · exact flag_kept (by simp)
    | timerExpireIntent busy hidle => exact ⟨fun _ _ => .inr (.inl ⟨⟨busy, rfl⟩, hidle⟩), nofun⟩
    | slaMatchArbIntent hpos => exact ⟨fun _ _ => .inr (.inr ⟨rfl, hpos⟩), fun _ => by simp⟩
    | beginSendStarts | beginSendEmpty => exact ⟨nofun, fun _ _ => .inl rfl⟩
    | clearReady => exact ⟨nofun, fun _ _ => .inr (.inl rfl)⟩
    | reset => exact ⟨nofun, fun _ _ => .inr (.inr rfl)⟩
    | _ => exact flag_kept (by simp)

/-- Settles O43: only the end of the data raises `stop_pending`, and only its confirmation and RESET drop it. -/
theorem stopPendingTransitions : Obligations.StopPendingTransitions := by
  unfold Obligations.StopPendingTransitions
  intro i s t h
  obtain ⟨k, rfl⟩ | ⟨-, heffect⟩ := exec_next_cases h
  · exact flag_kept (by simp)
  · cases heffect with
    | addrAckEnd h0 => exact ⟨fun _ _ => ⟨.inr rfl, by simpa using h0, by simp⟩, fun _ => by simp⟩
    | dataAckEmpty h0 => exact ⟨fun _ _ => ⟨.inl rfl, by simpa using h0, by simp⟩, fun _ => by simp⟩
    | dataAckLast v h1 => exact ⟨fun _ _ => ⟨.inl rfl, by simp [h1], by simp⟩, fun _ => by simp⟩
    | timerExpireConfirmed => exact ⟨nofun, fun _ _ => .inl ⟨rfl, rfl⟩⟩
    | reset => exact ⟨nofun, fun _ _ => .inr rfl⟩
    | _ => exact flag_kept (by simp)

/-! ### Outputs (42_bus_master.md R100, 30_encoding.md R70) -/

@[simp] theorem busOutputs_append (os ps : List Output) : busOutputs (os ++ ps) = busOutputs os ++ busOutputs ps :=
  List.filter_append ..

@[simp] theorem busOutputs_nil : busOutputs [] = [] := rfl

@[simp] theorem busOutputs_cons_bus (dir : Directive) (v : Option Byte) (os : List Output) :
    busOutputs (.bus dir v :: os) = .bus dir v :: busOutputs os := rfl

@[simp] theorem busOutputs_cons_ser (b : Byte) (os : List Output) : busOutputs (.ser b :: os) = busOutputs os := rfl

@[simp] theorem busOutputs_cons_ret (v : Byte) (os : List Output) : busOutputs (.ret v :: os) = busOutputs os := rfl

/-- Settles O45: what each body appends to the outputs: a byte with CONTINUE, a directive alone, the fast path's pair, a
byte for another port, or nothing. -/
theorem oneDirectivePerBusStep : Obligations.OneDirectivePerBusStep := by
  unfold Obligations.OneDirectivePerBusStep
  intro i s t h hfree
  obtain ⟨-, heffect⟩ := exec_next_faultFree h hfree
  cases heffect with
  | startSent | addrAckByte | dataAckByte => exact ⟨_, rfl, rfl, by simp⟩
  | addrAckEnd | dataAckEmpty | dataAckLast | addrNack | dataNack | arbLost | slaMatchArbIntent | slaMatchArbEmpty
  | busDefault => exact ⟨[.bus .sendStop none], by simp, rfl, by simp⟩
  | slaMatchRefused | slaMatchFull | slaMatchOpen | slvDataAckDropped | slvDataAckFills | slvDataAckStored
  | slvDataNackDrained | slvDataNackKept | stopRx => exact ⟨_, rfl, rfl, by simp⟩
  | slvDataAckFast d => exact ⟨[.ser d, .bus .contAck none], rfl, rfl, by simp⟩
  | beginSendStarts _ _ hpos => exact ⟨_, rfl, by simp [hpos], by simp⟩
  | beginSendEmpty _ _ h0 => exact ⟨[], by simp, by simp [Instr.agent, h0], by simp⟩
  | serTxEmptyByte | readRole | readReady | readErr | readClearErr => exact ⟨[_], rfl, rfl, by simp⟩
  | serTxEmptyIdle | timerTick | timerExpireIntent | timerExpireConfirmed | timerExpireRearmed | clearReady
  | critEnter | critExit | reset | serRxDropped | serRxStored =>
    exact ⟨[], by simp, by simp [Instr.agent], by simp⟩

end Sys2Proof.Proofs

namespace Sys2Proof.Proofs

open Sys2Proof.Machine Sys2Proof.Safety Sys2Proof.Laws

/-! ### Running a sequence forward -/

/-- A run goes on from the state its first operation answers. -/
theorem runAll_cons_of_next {i : Instr} {s u : State} (is : List Instr) (h : exec i s = .next u)
    (hfree : u.fault = none) : runAll (i :: is) s = runAll is u := by
  simp [runAll, h, hfree]

theorem runAll_append (is js : List Instr) (s : State) : runAll (is ++ js) s = (runAll is s).bind (runAll js) := by
  induction is generalizing s with
  | nil => rfl
  | cons i is ih =>
    simp only [List.cons_append, runAll]
    cases exec i s with
    | next u =>
      simp only
      split_ifs
      · exact ih u
      · rfl
    | fault | refused => rfl

/-- Enabled ticks take one each from the countdown (R113). -/
theorem runAll_pseudoTicks {s : State} {n : Nat} (hf : s.fault = none) (hcrit : s.critDepth = 0)
    (hrun : s.tmrRunning = true) (hn : n ≤ s.tmrRemaining) :
    runAll (pseudoTicks n) s = some { s with tmrRemaining := s.tmrRemaining - n } := by
  induction n generalizing s with
  | zero => rfl
  | succ n ih =>
    have htick := timerTickResult s hf hcrit hrun (by omega)
    rw [pseudoTicks, List.replicate_succ, runAll_cons_of_next _ htick hf]
    refine (ih (s := { s with tmrRemaining := s.tmrRemaining - 1 }) hf hcrit hrun (Nat.le_sub_one_of_lt hn)).trans ?_
    simp only [Nat.sub_sub, Nat.add_comm 1 n]

section

variable {s : State} (hf : s.fault = none) (hcrit : s.critDepth = 0) (hrun : s.tmrRunning = true)
  (hdue : s.tmrRemaining = 0)

include hf hcrit hrun hdue

/-- A due expiry with no stop pending raises the intent (R116). -/
theorem exec_timerExpire_intent {busy : Bool} (hidle : s.stopPending = false) :
    exec (.timerExpire busy) s = .next { s with tmrRunning := false, readyToSend := true } := by
  have h := timerExpireResult busy s hf hcrit hrun hdue
  rwa [if_pos hidle] at h

/-- A due expiry that reports the bus free confirms the pending stop (R116). -/
theorem exec_timerExpire_confirmed (hpend : s.stopPending = true) :
    exec (.timerExpire false) s = .next
      { s with tmrRunning := false, stopPending := false, stopPolls := 0, role := .stopped } := by
  have h := timerExpireResult false s hf hcrit hrun hdue
  rwa [if_neg (by simp [hpend]), if_pos rfl] at h

/-- A busy expiry at MAX_STOP_POLLS records StopPollExhausted (R117). -/
theorem exec_timerExpire_exhausted {m : Nat} (hpend : s.stopPending = true) (hmax : s.cfg.maxStopPolls = some m)
    (hpolls : m ≤ s.stopPolls.toNat) :
    exec (.timerExpire true) s = .next { s with fault := some .stopPollExhausted } := by
  have h := timerExpireResult true s hf hcrit hrun hdue
  rwa [if_neg (by simp [hpend]), if_neg (by simp), if_pos ⟨m, hmax, hpolls⟩] at h

/-- A busy expiry below MAX_STOP_POLLS counts the poll and re-arms (R116). -/
theorem exec_timerExpire_rearmed {m : Nat} (hpend : s.stopPending = true) (hmax : s.cfg.maxStopPolls = some m)
    (hpolls : s.stopPolls.toNat < m) :
    exec (.timerExpire true) s = .next
      { s with tmrRunning := true, tmrRemaining := s.cfg.tStopPoll,
               stopPolls := BitVec.ofNat 8 (min (s.stopPolls.toNat + 1) 255) } := by
  have h := timerExpireResult true s hf hcrit hrun hdue
  have hbelow : ¬ ∃ m, s.cfg.maxStopPolls = some m ∧ m ≤ s.stopPolls.toNat := by
    rintro ⟨m', hm', hle⟩
    rw [hmax, Option.some.injEq] at hm'
    omega
  rwa [if_neg (by simp [hpend]), if_neg (by simp), if_neg hbelow] at h

end

/-! ### The retry timer's sequences (44_retry_timer.md) -/

/-- Settles O49: the ticks bring the countdown to 0, and the expiry then raises the intent or confirms the stop. -/
theorem flushResolvesIntent : Obligations.FlushResolvesIntent := by
  unfold Obligations.FlushResolvesIntent
  intro s hf hcrit hrun
  rw [pseudoFlush, runAll_append, runAll_pseudoTicks hf hcrit hrun le_rfl, Option.bind_some, Nat.sub_self]
  split_ifs with hpend
  · exact runAll_cons_of_next [] (exec_timerExpire_confirmed hf hcrit hrun rfl hpend) hf
  · exact runAll_cons_of_next [] (exec_timerExpire_intent (s := { s with tmrRemaining := 0 }) hf hcrit hrun rfl
      (Bool.eq_false_iff.2 hpend)) hf

/-- A stop poll that is due, with `m` the bound of its configuration. -/
structure PollDue (m : Nat) (s : State) : Prop where
  faultFree : s.fault = none
  unmasked : s.critDepth = 0
  pending : s.stopPending = true
  running : s.tmrRunning = true
  due : s.tmrRemaining = 0
  bound : s.cfg.maxStopPolls = some m

/-- Each busy poll below the bound is counted, and its ticks make the next one due. -/
theorem runAll_busyPolls {m n : Nat} {s : State} (hm : m ≤ 255) (hs : PollDue m s) (hn : s.stopPolls.toNat + n = m) :
    ∃ t, runAll (busyPolls s.cfg.tStopPoll n) s = some t ∧ PollDue m t ∧ t.stopPolls.toNat = m := by
  induction n generalizing s with
  | zero => exact ⟨s, rfl, hs, hn⟩
  | succ n ih =>
    obtain ⟨hf, hcrit, hpend, hrun, hdue, hmax⟩ := hs
    have hexpire := exec_timerExpire_rearmed hf hcrit hrun hdue hpend hmax (by omega)
    have hpolls : (BitVec.ofNat 8 (min (s.stopPolls.toNat + 1) 255)).toNat = s.stopPolls.toNat + 1 := by
      rw [BitVec.toNat_ofNat]
      omega
    rw [busyPolls, runAll_cons_of_next _ hexpire hf, runAll_append]
    rw [runAll_pseudoTicks (s := { s with tmrRunning := true, tmrRemaining := s.cfg.tStopPoll, stopPolls := _ })
      hf hcrit rfl le_rfl, Option.bind_some, Nat.sub_self]
    refine ih (s := { s with tmrRunning := true, tmrRemaining := 0, stopPolls := _ })
      ⟨hf, hcrit, hpend, rfl, rfl, hmax⟩ ?_
    rw [hpolls]
    omega

/-- Settles O51: after the `m` busy polls the count is `m`, and the next busy expiry finds it at the bound. -/
theorem stopPollBound : Obligations.StopPollBound := by
  unfold Obligations.StopPollBound
  intro s m hf hcrit hpend hrun hdue hpolls hmax hm
  obtain ⟨t, ht, ⟨hf', hcrit', hpend', hrun', hdue', hmax'⟩, hcount⟩ := runAll_busyPolls (n := m) hm
    ⟨hf, hcrit, hpend, hrun, hdue, hmax⟩ (by simp [hpolls])
  exact ⟨t, ht, hcount, hpend', exec_timerExpire_exhausted hf' hcrit' hrun' hdue' hpend' hmax' hcount.ge⟩

/-! ### Hazards (70_reset_and_hazards.md section 3) -/

/-- Settles O56: BEGIN_SEND meets its contract and START is issued; the poll due before it then confirms the old
stop. -/
theorem staleConfirmationAdmitted : Obligations.StaleConfirmationAdmitted := by
  unfold Obligations.StaleConfirmationAdmitted
  intro s hf hcrit hrole hready hpend hrun hdue hpos
  have hbegin := beginSendResult s hf
  rw [if_pos ⟨hrole, hready⟩, if_pos hpos] at hbegin
  rw [runAll_cons_of_next _ hbegin hf]
  exact runAll_cons_of_next [] (exec_timerExpire_confirmed hf hcrit hrun hdue hpend) hf

/-- SLV_DATA_ACK with IN full drops its byte, whatever the buffer's storage holds (R106). -/
theorem exec_slvDataAck_full {s : State} (d : Byte) (hf : s.fault = none) (hcrit : s.critDepth = 0)
    (hfull : s.inBuf.count = s.cfg.cIn) (hcap : 0 < s.cfg.cIn) :
    exec (.slvDataAck d) s = .next
      { s with
        err := s.err ||| 0x01, role := .blockedReceiving, outputs := s.outputs ++ [.bus .withholdAck none] } := by
  obtain ⟨⟨h0, -⟩, -⟩ | ⟨-, -, hbody⟩ | ⟨-, hroom, -⟩ | ⟨hroom, -⟩ := slvDataAckBody_cases d s
  · omega
  · exact exec_eq_next_of_ok hf ((irqOpen_iff s).2 hcrit) hbody
  · exact absurd hfull hroom
  · exact absurd hfull hroom

/-- Settles O57: the first byte is drained, IN being left alone, so the second finds IN full again and overflows. -/
theorem persistentBackpressure : Obligations.PersistentBackpressure := by
  unfold Obligations.PersistentBackpressure
  intro d e s hf hcrit hrole hfull hcap
  have hnack := slvDataNackResult d s hf hcrit
  rw [if_pos hrole] at hnack
  rw [runAll_cons_of_next _ hnack hf]
  rw [runAll_cons_of_next [] (exec_slvDataAck_full
    (s := { s with role := .receiving, outputs := s.outputs ++ [.bus .contAck none] }) e hf hcrit hfull hcap) hf]
  simp [runAll, hrole]

/-! ### The send step (45_host_interface.md R128) -/

/-- The state just inside the send step's region. -/
def entered (s : State) : State := { s with critDepth := s.critDepth + 1 }

/-- The state inside the region once both reads are answered. -/
def asked (s : State) : State := hostReturn (hostReturn (entered s) (roleByte s.role)) (flagByte s.readyToSend)

/-- The region is entered and the reads are answered; what they read has not changed. -/
theorem runAll_pseudoTrySend {s : State} (hf : s.fault = none) (hdepth : s.critDepth ≠ 255) :
    runAll (pseudoTrySend s) s =
      runAll ((if s.role = .stopped ∧ s.readyToSend = true then [.beginSend] else []) ++ [.critExit]) (asked s) := by
  have henter : exec .critEnter s = .next (entered s) := exec_eq_next_of_ok hf rfl (if_neg hdepth)
  have hrole : exec .readRole (entered s) = .next (hostReturn (entered s) (roleByte s.role)) :=
    exec_eq_next_of_ok hf rfl rfl
  have hready : exec .readReady (hostReturn (entered s) (roleByte s.role)) = .next (asked s) :=
    exec_eq_next_of_ok hf rfl rfl
  exact (runAll_cons_of_next _ henter hf).trans
    ((runAll_cons_of_next _ hrole hf).trans (runAll_cons_of_next _ hready hf))

/-- Leaving the region restores the depth. -/
theorem runAll_critExit {s t : State} (hf : t.fault = none) (hdepth : s.critDepth ≠ 255)
    (hinside : t.critDepth = s.critDepth + 1) : runAll [.critExit] t = some { t with critDepth := s.critDepth } := by
  have hpos : t.critDepth ≠ 0 := by bv_omega
  have hback : t.critDepth - 1 = s.critDepth := by bv_omega
  have hexit : exec .critExit t = .next { t with critDepth := t.critDepth - 1 } :=
    exec_eq_next_of_ok hf rfl (if_neg hpos)
  rw [runAll_cons_of_next [] hexit hf, hback]
  rfl

/-- Settles O48: BEGIN_SEND runs only where the reads found its contract met, and they still hold; each way the depth is
restored and nothing but the role, the intent and the outputs is written. -/
theorem trySendKeepsContract : Obligations.TrySendKeepsContract := by
  unfold Obligations.TrySendKeepsContract
  intro s hf hdepth
  rw [runAll_pseudoTrySend hf hdepth]
  by_cases hpre : s.role = .stopped ∧ s.readyToSend = true
  · have hbegin : exec .beginSend (asked s) = _ := beginSendResult (asked s) hf
    rw [if_pos hpre, List.singleton_append]
    rw [if_pos (show (asked s).role = .stopped ∧ (asked s).readyToSend = true from hpre)] at hbegin
    by_cases hpos : 0 < s.outBuf.count
    · rw [if_pos (show 0 < (asked s).outBuf.count from hpos)] at hbegin
      rw [runAll_cons_of_next _ hbegin hf]
      refine ⟨_, runAll_critExit ?_ hdepth ?_, rfl, ?_, ?_, rfl, rfl, rfl, rfl, rfl, rfl⟩
      · exact hf
      · rfl
      · simp [hpre, hpos]
      · simp [hpre]
    · rw [if_neg (show ¬ 0 < (asked s).outBuf.count from hpos)] at hbegin
      rw [runAll_cons_of_next _ hbegin hf]
      refine ⟨_, runAll_critExit ?_ hdepth ?_, rfl, ?_, ?_, rfl, rfl, rfl, rfl, rfl, rfl⟩
      · exact hf
      · rfl
      · simp [hpos, asked, entered]
      · simp [hpre]
  · have hready : s.role = .stopped → s.readyToSend = false := fun hrole =>
      Bool.eq_false_iff.2 fun hready => hpre ⟨hrole, hready⟩
    rw [if_neg hpre, List.nil_append]
    refine ⟨_, runAll_critExit ?_ hdepth ?_, rfl, ?_, ?_, rfl, rfl, rfl, rfl, rfl, rfl⟩
    · exact hf
    · rfl
    · rw [if_neg fun h => hpre ⟨h.1, h.2.1⟩]
      rfl
    · split_ifs with hrole
      · exact hready hrole
      · rfl

end Sys2Proof.Proofs

namespace Sys2Proof.Proofs

open Sys2Proof.Machine Sys2Proof.Safety Sys2Proof.Laws

/-! ### The backoff (70_reset_and_hazards.md section 3) -/

/-- An interval is running and nothing has yet raised the intent. -/
structure BackingOff (s : State) : Prop where
  faultFree : s.fault = none
  running : s.tmrRunning = true
  noIntent : s.readyToSend = false

/-- The operations that may raise the intent, stop the timer or start anew while a backoff runs (R164). -/
def Disturbs (i : Instr) : Prop := (∃ b, i = .serRx b) ∨ i = .slaMatchArb ∨ i = .reset

/-- While ticks remain, an undisturbed step neither sends nor expires, and only a tick moves the countdown. -/
theorem Effect.backingOff {i : Instr} {s t : State} (h : Effect s i t) (hs : BackingOff s) (hen : opEnabled i s = true)
    (hpos : 0 < s.tmrRemaining) (hquiet : ¬ Disturbs i) :
    BackingOff t ∧ i ≠ .beginSend ∧ (∀ k, i ≠ .timerExpire k) ∧
      t.tmrRemaining = s.tmrRemaining - (if i = .timerTick then 1 else 0) := by
  obtain ⟨hf, hrun, hready⟩ := hs
  have hfault := h.fault_eq.trans hf
  cases h with
  | serRxDropped b | serRxStored b => exact absurd (.inl ⟨b, rfl⟩) hquiet
  | slaMatchArbIntent | slaMatchArbEmpty => exact absurd (.inr (.inl rfl)) hquiet
  | reset => exact absurd (.inr (.inr rfl)) hquiet
  | timerExpireIntent | timerExpireConfirmed | timerExpireRearmed =>
    obtain ⟨-, -, hdue⟩ := (expireEnabled_iff s).1 hen
    exact absurd hdue hpos.ne'
  | beginSendStarts _ hintent | beginSendEmpty _ hintent => simp [hready] at hintent
  | clearReady => exact ⟨⟨hf, hrun, rfl⟩, nofun, nofun, rfl⟩
  | timerTick => exact ⟨⟨hf, hrun, hready⟩, nofun, nofun, rfl⟩
  | _ => exact ⟨⟨hfault, by simp [hrun], by simp [hready]⟩, nofun, nofun, by simp [hrun]⟩

/-- A run with fewer ticks than remain, and nothing that disturbs it, leaves the backoff running. -/
theorem runAll_backingOff {is : List Instr} {s t : State} (hs : BackingOff s) (hquiet : ∀ i ∈ is, ¬ Disturbs i)
    (hticks : is.count .timerTick < s.tmrRemaining) (h : runAll is s = some t) :
    BackingOff t ∧ .beginSend ∉ is ∧ (∀ k, .timerExpire k ∉ is) ∧
      t.tmrRemaining = s.tmrRemaining - is.count .timerTick := by
  induction is generalizing s with
  | nil =>
    cases h
    exact ⟨hs, List.not_mem_nil, fun _ => List.not_mem_nil, rfl⟩
  | cons i is ih =>
    obtain ⟨u, hexec, hfree, hrun⟩ := runAll_cons h
    obtain ⟨hen, heffect⟩ := exec_next_faultFree hexec hfree
    obtain ⟨hi, his⟩ := List.forall_mem_cons.1 hquiet
    obtain ⟨hu, hsend, hexpire, hremaining⟩ := heffect.backingOff hs hen (by omega) hi
    have hcount : (i :: is).count .timerTick = is.count .timerTick + (if i = .timerTick then 1 else 0) := by
      rw [List.count_cons]
      simp
    obtain ⟨ht, hsends, hexpires, hremaining'⟩ := ih hu his (by omega) hrun
    refine ⟨ht, ?_, fun k => ?_, by omega⟩
    · simpa using ⟨hsend.symm, hsends⟩
    · simpa using ⟨(hexpire k).symm, hexpires k⟩

/-- The state a NACK or an arbitration loss leaves where no countdown runs: the backoff is armed (R96-R99). -/
def backedOff (s : State) : State :=
  { s with role := .stopped, outputs := s.outputs ++ [.bus .sendStop none],
           tmrRunning := true, tmrRemaining := s.cfg.tBackoff }

theorem exec_abortEvent {i : Instr} {s : State} (hi : i = .addrNack ∨ i = .dataNack ∨ i = .arbLost)
    (hf : s.fault = none) (hcrit : s.critDepth = 0) (hstopped : s.tmrRunning = false) :
    exec i s = .next (backedOff s) := by
  have hafter : afterAbort s s.cfg.tBackoff = backedOff s := by
    simp [afterAbort, withArm, backedOff, hstopped]
  obtain ⟨haddr, hdata, harb⟩ := abortEventsResult s hf hcrit
  rw [← hafter]
  obtain rfl | rfl | rfl := hi
  · exact haddr
  · exact hdata
  · exact harb

/-- Settles O50: the event arms the backoff, an undisturbed run with too few ticks leaves it running and the intent
down, and after all its ticks the expiry raises the intent. -/
theorem nackBackoffHoldsOffRetry : Obligations.NackBackoffHoldsOffRetry := by
  unfold Obligations.NackBackoffHoldsOffRetry
  intro i s hi hf hcrit hstopped hready
  have hevent := exec_abortEvent hi hf hcrit hstopped
  constructor
  · intro is t hrx harb hreset hticks hrun
    rw [runAll_cons_of_next _ hevent hf] at hrun
    have hquiet : ∀ j ∈ is, ¬ Disturbs j := by
      rintro j hj (⟨b, rfl⟩ | rfl | rfl)
      · exact hrx b hj
      · exact harb hj
      · exact hreset hj
    obtain ⟨⟨hf', hrunning, hready'⟩, hsend, hexpire, hremaining⟩ :=
      runAll_backingOff (s := backedOff s) ⟨hf, rfl, hready⟩ hquiet hticks hrun
    have hbegin := beginSendResult t hf'
    rw [if_neg (by simp [hready'])] at hbegin
    exact ⟨hsend, hexpire, hready', hrunning, hremaining, hbegin⟩
  · intro hidle k
    rw [runAll_cons_of_next _ hevent hf, runAll_append]
    have hticks := runAll_pseudoTicks (s := backedOff s) (n := s.cfg.tBackoff) hf hcrit rfl le_rfl
    rw [hticks, Option.bind_some]
    refine ⟨_, runAll_cons_of_next [] (exec_timerExpire_intent ?_ ?_ ?_ ?_ ?_) ?_, rfl, rfl, rfl, rfl⟩
    · exact hf
    · exact hcrit
    · rfl
    · exact Nat.sub_self _
    · exact hidle
    · exact hf

/-! ### What is not read (45_host_interface.md R131, 00_scope.md R10, 60_exceptions.md R151) -/

/-- A change of the state that leaves `fault` alone passes through a step when it passes through the enabling and the
body. -/
theorem performStep_map {f : State → State} (hfault : ∀ s, (f s).fault = s.fault)
    (hrecord : ∀ s k, recordFault (f s) k = f (recordFault s k)) (s : State) (en : Bool) (body : Except Fault State) :
    performStep (f s) en (body.map f) = mapNext f (performStep s en body) := by
  cases hf : s.fault with
  | some k => rw [performStep_faulted _ _ hf, performStep_faulted _ _ ((hfault s).trans hf), mapNext]
  | none =>
    have hf' := (hfault s).trans hf
    cases en with
    | false => rw [performStep_disabled _ hf rfl, performStep_disabled _ hf' rfl, mapNext, hrecord]
    | true =>
      cases body with
      | ok t => rw [Except.map, performStep_ok hf rfl, performStep_ok hf' rfl, mapNext]
      | error k => rw [Except.map, performStep_error hf rfl, performStep_error hf' rfl, mapNext, hrecord]

theorem exec_map {f : State → State} (hfault : ∀ s, (f s).fault = s.fault)
    (hrecord : ∀ s k, recordFault (f s) k = f (recordFault s k)) {i : Instr} {s : State}
    (hen : opEnabled i (f s) = opEnabled i s) (hbody : opBody i (f s) = (opBody i s).map f) :
    exec i (f s) = mapNext f (exec i s) := by
  rw [exec_eq_performStep, exec_eq_performStep, hen, hbody, performStep_map hfault hrecord]

/-- BEGIN_SEND reads the count of OUT and nothing else of the hidden elements. -/
theorem beginSendBody_withHidden (s u : State) :
    beginSendBody (withHidden s u) = (beginSendBody s).map fun t => withHidden t u := by
  simp only [beginSendBody, apply_ite (Except.map _)]
  rfl

/-- Settles O54: no Dispatcher body reads a hidden element, and each one's writes leave them as they are. -/
theorem dispatcherBlindSpots : Obligations.DispatcherBlindSpots := by
  unfold Obligations.DispatcherBlindSpots
  intro i s u hi
  refine exec_map (f := fun t => withHidden t u) (fun _ => rfl) (fun _ _ => rfl) ?_ ?_
  · cases i with
    | readRole | readReady | clearReady | readErr | readClearErr | beginSend | critEnter | critExit => rfl
    | _ => cases hi
  · cases i with
    | beginSend => exact beginSendBody_withHidden s u
    | readClearErr =>
      simp only [opBody, readClearErrState_eq]
      rfl
    | critEnter | critExit =>
      simp only [opBody, apply_ite (Except.map _)]
      rfl
    | readRole | readReady | clearReady | readErr => rfl
    | _ => cases hi

/-- SER_RX's answers as one chain of tests (R89). -/
theorem serRxBody_eq (b : Byte) (s : State) :
    serRxBody b s =
      if s.outBuf.count = s.cfg.cOut then .ok (rxState s s.outBuf (s.err ||| 0x02))
      else if s.outBuf.head < s.cfg.cOut then .ok (rxState s (pushed s.cfg.cOut s.outBuf b) s.err)
      else .error .noSuchSlot := by
  obtain ⟨hfull, hbody⟩ | ⟨hroom, hhead, hbody⟩ | ⟨hroom, hhead, hbody⟩ := serRxBody_cases b s
  · rw [hbody, if_pos hfull]
  · rw [hbody, if_neg hroom, if_pos hhead]
  · rw [hbody, if_neg hroom, if_neg hhead]

/-! ### TICK and OWN_ADDR pass through every body -/

section

variable (s : State) (tick : Nat) (own : BitVec 7)

theorem abort_withUnread (n : Nat) : abort (withUnread s tick own) n = withUnread (abort s n) tick own := by
  rw [abort_eq, abort_eq]
  rfl

theorem transmitTail_withUnread :
    transmitTail (withUnread s tick own) = (transmitTail s).map fun t => withUnread t tick own := by
  have hpeek : ringPeek (withUnread s tick own).cfg.cOut (withUnread s tick own).outBuf =
    ringPeek s.cfg.cOut s.outBuf := rfl
  rw [transmitTail, transmitTail, hpeek]
  cases ringPeek s.cfg.cOut s.outBuf with
  | error k => rfl
  | ok r =>
    cases r with
    | some v => rfl
    | none =>
      simp only [Except.map, endOfData_eq]
      rfl

theorem dataAckBody_withUnread :
    dataAckBody (withUnread s tick own) = (dataAckBody s).map fun t => withUnread t tick own := by
  have hpop : ringPop (withUnread s tick own).cfg.cOut (withUnread s tick own).outBuf =
    ringPop s.cfg.cOut s.outBuf := rfl
  rw [dataAckBody, dataAckBody, hpop]
  cases ringPop s.cfg.cOut s.outBuf with
  | error k => rfl
  | ok r =>
    cases r with
    | none => exact transmitTail_withUnread s tick own
    | some p => exact transmitTail_withUnread { s with outBuf := p.2 } tick own

theorem slaMatchState_withUnread :
    slaMatchState (withUnread s tick own) = withUnread (slaMatchState s) tick own := by
  simp only [slaMatchState, apply_ite (withUnread · tick own)]
  rfl

theorem slvDataAckBody_withUnread (d : Byte) :
    slvDataAckBody d (withUnread s tick own) = (slvDataAckBody d s).map fun t => withUnread t tick own := by
  have hfast : fastPath (withUnread s tick own) = fastPath s := rfl
  have hpush : ringPush (withUnread s tick own).cfg.cIn (withUnread s tick own).inBuf d =
    ringPush s.cfg.cIn s.inBuf d := rfl
  rw [slvDataAckBody, slvDataAckBody, hfast, hpush]
  cases fastPath s with
  | true => rfl
  | false =>
    cases ringPush s.cfg.cIn s.inBuf d with
    | error k => rfl
    | ok r =>
      cases r with
      | none => rfl
      | some q =>
        simp only [apply_ite (Except.map _)]
        rfl

theorem serTxEmptyBody_withUnread :
    serTxEmptyBody (withUnread s tick own) = (serTxEmptyBody s).map fun t => withUnread t tick own := by
  have hpop : ringPop (withUnread s tick own).cfg.cIn (withUnread s tick own).inBuf =
    ringPop s.cfg.cIn s.inBuf := rfl
  rw [serTxEmptyBody, serTxEmptyBody, hpop]
  cases ringPop s.cfg.cIn s.inBuf with
  | error k => rfl
  | ok r => cases r <;> rfl

theorem serRxBody_withUnread (b : Byte) :
    serRxBody b (withUnread s tick own) = (serRxBody b s).map fun t => withUnread t tick own := by
  simp only [serRxBody_eq, apply_ite (Except.map _)]
  rfl

theorem timerExpireBody_withUnread (busy : Bool) :
    timerExpireBody busy (withUnread s tick own) = (timerExpireBody busy s).map fun t => withUnread t tick own := by
  simp only [timerExpireBody, apply_ite (Except.map _)]
  rfl

theorem beginSendBody_withUnread :
    beginSendBody (withUnread s tick own) = (beginSendBody s).map fun t => withUnread t tick own := by
  simp only [beginSendBody, apply_ite (Except.map _)]
  rfl

end

/-- Settles O55: enabling reads neither parameter, and each body passes a change of them through. -/
theorem tickAndOwnAddressUnread : Obligations.TickAndOwnAddressUnread := by
  unfold Obligations.TickAndOwnAddressUnread
  intro i s tick own
  refine exec_map (f := fun t => withUnread t tick own) (fun _ => rfl) (fun _ _ => rfl) ?_ ?_
  · cases i <;> rfl
  · cases i with
    | addrAck => exact transmitTail_withUnread s tick own
    | dataAck => exact dataAckBody_withUnread s tick own
    | slvDataAck d => exact slvDataAckBody_withUnread s tick own d
    | serRx b => exact serRxBody_withUnread s tick own b
    | serTxEmpty => exact serTxEmptyBody_withUnread s tick own
    | timerExpire busy => exact timerExpireBody_withUnread s tick own busy
    | addrNack | dataNack | arbLost | busDefault => exact congrArg Except.ok (abort_withUnread s tick own _)
    | slaMatch => exact congrArg Except.ok (slaMatchState_withUnread s tick own)
    | slaMatchArb =>
      simp only [opBody, slaMatchArbState_eq]
      rfl
    | slvDataNack d =>
      simp only [opBody, slvDataNackState_eq]
      rfl
    | readClearErr =>
      simp only [opBody, readClearErrState_eq]
      rfl
    | critEnter | critExit =>
      simp only [opBody, apply_ite (Except.map _)]
      rfl
    | beginSend => exact beginSendBody_withUnread s tick own
    | startSent | stopRx | timerTick | readRole | readReady | clearReady | readErr | reset => rfl

end Sys2Proof.Proofs

namespace Sys2Proof.Proofs

open Sys2Proof.Machine Sys2Proof.Safety Sys2Proof.Laws

/-! ### Endless runs -/

section

variable {σ : Nat → Instr} {st : Nat → State}

theorem run_effect (hrun : EndlessRun σ st) (n : Nat) :
    opEnabled (σ n) (st n) = true ∧ Effect (st n) (σ n) (st (n + 1)) :=
  exec_next_faultFree (hrun.steps n) (hrun.faultFree (n + 1))

theorem run_inv (hrun : EndlessRun σ st) (hinv : Safety.Inv (st 0)) (n : Nat) : Safety.Inv (st n) := by
  induction n with
  | zero => exact hinv
  | succ n ih => exact exec_keeps_inv (hrun.steps n) ih

theorem run_cfg (hrun : EndlessRun σ st) (n : Nat) : (st n).cfg = (st 0).cfg := by
  induction n with
  | zero => rfl
  | succ n ih => exact (run_effect hrun n).2.cfg_eq.trans ih

/-- F2 and F4 together: an event that is pending, and whose source stays enabled until it is served, is served. If it
never were, it would stay pending, and open whenever a critical region has ended. -/
theorem pending_served {pend : Nat → Agent → Prop} (hreset : ∀ n, σ n ≠ .reset) (htrace : PendingTrace σ st pend)
    (hfair : FairEvents σ st pend) (hregions : RegionsEnd st) {a : Agent} (ha : IsPeripheral a) {n : Nat}
    (hpend : pend n a) (henabled : ∀ m, n ≤ m → (∀ k, n ≤ k → k < m → (σ k).agent ≠ a) → SourceEnabled a (st m)) :
    ∃ m, n ≤ m ∧ (σ m).agent = a := by
  by_contra hnever
  push Not at hnever
  have hen : ∀ m, n ≤ m → SourceEnabled a (st m) := fun m hm => henabled m hm fun k hk _ => hnever k hk
  have hkept : ∀ m, n ≤ m → pend m a := fun m hm => by
    induction m, hm using Nat.le_induction with
    | base => exact hpend
    | succ m hm ih => exact htrace.kept m a ha ih (hen m hm) (hnever m hm) (hreset m)
  obtain ⟨m, hm, hserved⟩ := hfair a n ha fun k hk => by
    obtain ⟨m, hkm, hcrit⟩ := hregions k
    exact ⟨m, hkm, hkept m (hk.trans hkm), hcrit, hen m (hk.trans hkm)⟩
  exact hnever m hm hserved

end

/-! ### Pending events are served (60_exceptions.md R137, R141) -/

/-- SER_RX drops its byte with OUT_OVF set when OUT is full, and otherwise appends it (R89). -/
theorem Effect.serRx_result {b : Byte} {s t : State} (h : Effect s (.serRx b) t) (hs : Inv s) :
    if s.outBuf.count = s.cfg.cOut then t.outBuf = s.outBuf ∧ t.err = s.err ||| 0x02
    else contents t.cfg.cOut t.outBuf = contents s.cfg.cOut s.outBuf ++ [b] := by
  cases h with
  | serRxDropped _ hfull =>
    rw [if_pos hfull]
    exact ⟨rfl, rfl⟩
  | serRxStored _ hroom =>
    rw [if_neg hroom]
    exact contents_pushed b hs.outWf hroom

/-- A bus step answers with exactly one directive (R100). -/
theorem exec_bus_directive {i : Instr} {s t : State} (h : exec i s = .next t) (hfree : t.fault = none)
    (hi : i.agent = .bus) : ∃ dir v, busOutputs t.outputs = busOutputs s.outputs ++ [.bus dir v] := by
  obtain ⟨new, hout, hone, -⟩ := oneDirectivePerBusStep i s t h hfree
  rw [if_pos (.inl hi)] at hone
  obtain ⟨o, ho⟩ := List.length_eq_one_iff.1 hone
  have hmem : o ∈ busOutputs new := by simp [ho]
  cases o with
  | bus dir v => exact ⟨dir, v, by rw [hout, busOutputs_append, ho]⟩
  | ser b => simp [busOutputs] at hmem
  | ret v => simp [busOutputs] at hmem

/-- Settles O58: neither source is ever disabled, so a pending event is served, and the serving step's result is
known. -/
theorem pendingEventsAreServed : Obligations.PendingEventsAreServed := by
  unfold Obligations.PendingEventsAreServed
  intro σ st pend hrun hinv hreset htrace hfair hregions n
  have hserved : ∀ {a}, IsPeripheral a → (∀ s, SourceEnabled a s) → pend n a → ∃ m, n ≤ m ∧ (σ m).agent = a :=
    fun ha hen hpend => pending_served hreset htrace hfair hregions ha hpend fun m _ _ => hen _
  constructor
  · intro hpend
    obtain ⟨m, hm, hagent⟩ := hserved (.inr (.inl rfl)) (fun _ => trivial) hpend
    obtain ⟨-, heffect⟩ := run_effect hrun m
    cases hi : σ m with
    | serRx b =>
      rw [hi] at heffect
      exact ⟨m, b, hm, hi, heffect.serRx_result (run_inv hrun hinv m)⟩
    | _ => simp [hi, Instr.agent] at hagent
  · intro hpend
    obtain ⟨m, hm, hagent⟩ := hserved (.inl rfl) (fun _ => trivial) hpend
    obtain ⟨dir, v, hout⟩ := exec_bus_directive (hrun.steps m) (hrun.faultFree (m + 1)) hagent
    exact ⟨m, dir, v, hm, hagent, hout⟩

/-! ### Waiting bytes are sent (20_memory.md section 4) -/

/-- Nothing but SER_TX_EMPTY and RESET takes a byte from IN. -/
theorem Effect.inBuf_count_pos {i : Instr} {s t : State} (h : Effect s i t) (htake : i ≠ .serTxEmpty)
    (hreset : i ≠ .reset) (hpos : 0 < s.inBuf.count) : 0 < t.inBuf.count := by
  cases h with
  | slvDataAckFills | slvDataAckStored => exact Nat.succ_pos _
  | serTxEmptyByte | serTxEmptyIdle => exact absurd rfl htake
  | reset => exact absurd rfl hreset
  | _ => simpa using hpos

/-- With a byte in IN, SER_TX_EMPTY writes one to the serial register. -/
theorem Effect.serTxEmpty_length {s t : State} (h : Effect s .serTxEmpty t) (hpos : 0 < s.inBuf.count) :
    (serBytes t.outputs).length = (serBytes s.outputs).length + 1 := by
  cases h with
  | serTxEmptyByte v => simp
  | serTxEmptyIdle h0 => exact absurd h0 hpos.ne'

section

variable {σ : Nat → Instr} {st : Nat → State} {pend : Nat → Agent → Prop} (hrun : EndlessRun σ st)
  (hinv : Safety.Inv (st 0)) (hreset : ∀ n, σ n ≠ .reset)

include hrun

/-- What has been written to the serial register stays written. -/
theorem serBytes_mono {n m : Nat} (hm : n ≤ m) : serBytes (st n).outputs <+: serBytes (st m).outputs := by
  induction m, hm using Nat.le_induction with
  | base => exact List.prefix_rfl
  | succ m hm ih =>
    obtain ⟨new, hout, -⟩ := oneDirectivePerBusStep _ _ _ (hrun.steps m) (hrun.faultFree (m + 1))
    rw [hout, serBytes_append]
    exact ih.trans (List.prefix_append _ _)

include hinv hreset

/-- The stream of serial bytes only grows at its end. -/
theorem serialStream_mono {n m : Nat} (hm : n ≤ m) : serialStream (st n) <+: serialStream (st m) := by
  induction m, hm using Nat.le_induction with
  | base => exact List.prefix_rfl
  | succ m hm ih =>
    rw [(run_effect hrun m).2.serialStream_eq (run_inv hrun hinv m) (hreset m)]
    exact ih.trans (List.prefix_append _ _)

variable (htrace : PendingTrace σ st pend) (hfair : FairEvents σ st pend) (hregions : RegionsEnd st)

include htrace hfair hregions

/-- While IN holds a byte, `txie` is 1; so if the register keeps asking, a SER_TX_EMPTY comes that finds a byte. -/
theorem waiting_served {m : Nat} (hasks : ∀ k, m ≤ k → ∃ j, k ≤ j ∧ pend j .stx) (hpos : 0 < (st m).inBuf.count) :
    ∃ j, m ≤ j ∧ σ j = .serTxEmpty ∧ 0 < (st j).inBuf.count := by
  by_contra hnever
  push Not at hnever
  have hwaiting : ∀ j, m ≤ j → 0 < (st j).inBuf.count := fun j hj => by
    induction j, hj using Nat.le_induction with
    | base => exact hpos
    | succ j hj ih =>
      have htake : σ j ≠ .serTxEmpty := fun hi => absurd ih (hnever j hj hi).not_gt
      exact (run_effect hrun j).2.inBuf_count_pos htake (hreset j) ih
  have htxie : ∀ j, m ≤ j → (st j).txie = true := fun j hj => by
    have hj' := run_inv hrun hinv j
    cases hidle : (st j).txIdle with
    | false => rw [hj'.txieNot, hidle, Bool.not_false]
    | true => exact absurd (hj'.idleEmpty hidle) (hwaiting j hj).ne'
  obtain ⟨k, hk, hpend⟩ := hasks m le_rfl
  obtain ⟨j, hj, hagent⟩ := pending_served hreset htrace hfair hregions (.inr (.inr rfl)) hpend
    fun j hj _ => htxie j (hk.trans hj)
  have hi : σ j = .serTxEmpty := by
    cases hi : σ j with
    | serTxEmpty => rfl
    | _ => simp [hi, Instr.agent] at hagent
  exact absurd (hwaiting j (hk.trans hj)) (hnever j (hk.trans hj) hi).not_gt

/-- If the register keeps asking, as many bytes are written as the stream held. -/
theorem serBytes_reach {n : Nat} (hasks : ∀ k, n ≤ k → ∃ j, k ≤ j ∧ pend j .stx) {l : Nat}
    (hl : l ≤ (serialStream (st n)).length) : ∃ m, n ≤ m ∧ l ≤ (serBytes (st m).outputs).length := by
  induction l with
  | zero => exact ⟨n, le_rfl, Nat.zero_le _⟩
  | succ l ih =>
    obtain ⟨m, hm, hwritten⟩ := ih (Nat.le_of_succ_le hl)
    by_cases hdone : l + 1 ≤ (serBytes (st m).outputs).length
    · exact ⟨m, hm, hdone⟩
    · have hgrown := (serialStream_mono hrun hinv hreset hm).length_le
      have hlength : (serialStream (st m)).length = (serBytes (st m).outputs).length + (st m).inBuf.count := by
        rw [serialStream, List.length_append, contents_length (run_inv hrun hinv m).inWf]
      obtain ⟨j, hj, hi, hpos⟩ := waiting_served hrun hinv hreset htrace hfair hregions
        (fun k hk => hasks k (hm.trans hk)) (by omega)
      have heffect := (run_effect hrun j).2
      rw [hi] at heffect
      have hmore := heffect.serTxEmpty_length hpos
      have hkept := (serBytes_mono hrun hj).length_le
      exact ⟨j + 1, by omega, by omega⟩

end

/-- Settles O53: unless the register stops asking, as many bytes are written in the end as the stream held; both being
initial parts of the later stream, the earlier stream begins what is written. -/
theorem waitingBytesAreSent : Obligations.WaitingBytesAreSent := by
  unfold Obligations.WaitingBytesAreSent
  intro σ st pend hrun hinv hreset htrace hfair hregions n
  by_cases hstops : ∃ m, n ≤ m ∧ ∀ k, m ≤ k → ¬ pend k .stx
  · obtain ⟨m, hm, hstops⟩ := hstops
    exact ⟨m, hm, .inr hstops⟩
  · push Not at hstops
    obtain ⟨m, hm, hlength⟩ := serBytes_reach hrun hinv hreset htrace hfair hregions hstops le_rfl
    exact ⟨m, hm, .inl (List.prefix_of_prefix_length_le (serialStream_mono hrun hinv hreset hm)
      (List.prefix_append _ _) hlength)⟩

/-! ### Pending stops are confirmed (44_retry_timer.md) -/

/-- While a stop is pending under the default gate, nothing but a tick moves the running poll, up to its expiry. -/
theorem Effect.pollRemaining {i : Instr} {s t : State} (h : Effect s i t) (hpend : s.stopPending = true)
    (hrun : s.tmrRunning = true) (hgate : s.cfg.rxTimerOverridesStopPoll = false) (hexpire : ∀ b, i ≠ .timerExpire b)
    (hreset : i ≠ .reset) : t.tmrRemaining = s.tmrRemaining - (if i = .timerTick then 1 else 0) := by
  cases h with
  | serRxDropped | serRxStored =>
    have hclosed : rxGate s = false := by simp [rxGate, hpend, hgate]
    simp [hclosed]
  | timerExpireIntent b | timerExpireConfirmed | timerExpireRearmed => exact absurd rfl (hexpire _)
  | reset => exact absurd rfl hreset
  | timerTick => rfl
  | _ => simp [hrun]

/-- An expiry that reports the bus free confirms the pending stop (R116). -/
theorem Effect.confirmed {s t : State} (h : Effect s (.timerExpire false) t) (hpend : s.stopPending = true) :
    t.role = .stopped ∧ t.stopPending = false := by
  cases h with
  | timerExpireIntent _ hidle => simp [hpend] at hidle
  | timerExpireConfirmed => exact ⟨rfl, rfl⟩

section

variable {σ : Nat → Instr} {st : Nat → State}

/-- Where TMR steps never end, and none but ticks moves the countdown, an expiry comes: each tick takes one. -/
theorem expiry_reached (hrun : EndlessRun σ st) {n : Nat} (htmr : ∀ k, n ≤ k → ∃ m, k ≤ m ∧ (σ m).agent = .tmr)
    (hcount : ∀ m, n ≤ m → (∀ b, σ m ≠ .timerExpire b) →
      (st (m + 1)).tmrRemaining = (st m).tmrRemaining - (if σ m = .timerTick then 1 else 0)) :
    ∃ m b, n ≤ m ∧ σ m = .timerExpire b := by
  by_contra hnever
  push Not at hnever
  have hfalls : ∀ k m, n ≤ k → k ≤ m → (st m).tmrRemaining ≤ (st k).tmrRemaining := fun k m hk hm => by
    induction m, hm using Nat.le_induction with
    | base => exact le_rfl
    | succ m hm ih =>
      rw [hcount m (hk.trans hm) fun b => hnever m b (hk.trans hm)]
      exact (Nat.sub_le _ _).trans ih
  have htick : ∀ k, n ≤ k → ∃ m, k ≤ m ∧ σ m = .timerTick ∧ 0 < (st m).tmrRemaining := fun k hk => by
    obtain ⟨m, hm, hagent⟩ := htmr k hk
    have hen := (run_effect hrun m).1
    cases hi : σ m with
    | timerTick =>
      rw [hi] at hen
      exact ⟨m, hm, hi, ((tickEnabled_iff _).1 hen).2.2⟩
    | timerExpire b => exact absurd hi (hnever m b (hk.trans hm))
    | _ => simp [hi, Instr.agent] at hagent
  have hnone : ∀ k, n ≤ k → False := fun k hk => by
    induction hr : (st k).tmrRemaining using Nat.strong_induction_on generalizing k with
    | _ r ih =>
      obtain ⟨m, hm, hi, hpos⟩ := htick k hk
      have hkept := hfalls k m hk hm
      have hone := hcount m (hk.trans hm) fun b => hnever m b (hk.trans hm)
      rw [if_pos hi] at hone
      exact ih _ (by omega) (m + 1) (by omega) rfl
  exact hnone n le_rfl

/-- Under the default gate a pending stop meets an expiry that reports the bus free. If it never did, it would stay
pending and its poll running, so TMR steps would never end (F1, F4), so expiries would never end, against F3. -/
theorem confirmation_reached (hrun : EndlessRun σ st) (hinv : Safety.Inv (st 0))
    (hgate : (st 0).cfg.rxTimerOverridesStopPoll = false) (hreset : ∀ n, σ n ≠ .reset) (hfair : FairTimer σ st)
    (hbusy : BusyEnds σ st) (hregions : RegionsEnd st) {n : Nat} (hpend : (st n).stopPending = true) :
    ∃ m, n ≤ m ∧ σ m = .timerExpire false ∧ (st m).stopPending = true := by
  by_contra hnever
  push Not at hnever
  have hpending : ∀ m, n ≤ m → (st m).stopPending = true := fun m hm => by
    induction m, hm using Nat.le_induction with
    | base => exact hpend
    | succ m hm ih =>
      by_contra hdropped
      obtain ⟨hi, -⟩ | hi := (stopPendingTransitions _ _ _ (hrun.steps m)).2 ih (Bool.eq_false_iff.2 hdropped)
      · exact hnever m hm hi ih
      · exact hreset m hi
  have hclosed : ∀ m, (st m).cfg.rxTimerOverridesStopPoll = false := fun m => by rw [run_cfg hrun m, hgate]
  have hrunning : ∀ m, n ≤ m → (st m).tmrRunning = true := fun m hm =>
    (run_inv hrun hinv m).stopPolled (hclosed m) (hpending m hm)
  have htmr : ∀ k, n ≤ k → ∃ m, k ≤ m ∧ (σ m).agent = .tmr := fun k hk => hfair k fun j hj => by
    obtain ⟨m, hm, hcrit⟩ := hregions j
    exact ⟨m, hm, hcrit, hrunning m (by omega)⟩
  have hexpiries : ∀ k, n ≤ k → ∃ m b, k ≤ m ∧ σ m = .timerExpire b ∧ (st m).stopPending = true := fun k hk => by
    obtain ⟨m, b, hm, hi⟩ := expiry_reached hrun (fun j hj => htmr j (hk.trans hj)) fun j hj hexpire =>
      (run_effect hrun j).2.pollRemaining (hpending j (hk.trans hj)) (hrunning j (hk.trans hj)) (hclosed j) hexpire
        (hreset j)
    exact ⟨m, b, hm, hi, hpending m (hk.trans hm)⟩
  obtain ⟨m, hm, hi, hp⟩ := hbusy n hexpiries
  exact hnever m hm hi hp

end

/-- Settles O52: the expiry that `confirmation_reached` gives takes R116's confirming branch. -/
theorem stopConfirmationTerminates : Obligations.StopConfirmationTerminates := by
  unfold Obligations.StopConfirmationTerminates
  intro σ st hrun hinv hgate hreset hfair hbusy hregions n hpend
  obtain ⟨m, hm, hi, hp⟩ := confirmation_reached hrun hinv hgate hreset hfair hbusy hregions hpend
  obtain ⟨-, heffect⟩ := run_effect hrun m
  rw [hi] at heffect
  obtain ⟨hrole, hdone⟩ := heffect.confirmed hp
  exact ⟨m, hm, hi, hp, hrole, hdone⟩

end Sys2Proof.Proofs
